-- ==== Sys2Proof/Word.lean ====
section
/-! DEFINITION. The word types of the CHIP-8 core (00_scope.md rules R12, R13) and zero extension. -/

namespace Sys2Proof

/-- u4: a register index or the 4-bit immediate `n` (30_encoding.md rule R55). -/
abbrev Nibble := BitVec 4

/-- u8: a general register, a timer or a memory byte (00_scope.md rule R10). -/
abbrev Byte := BitVec 8

/-- u12: the `nnn` field of an instruction (30_encoding.md rule R55). -/
abbrev Addr := BitVec 12

/-- u16: I, PC, a stack entry or an instruction word (00_scope.md rule R10). -/
abbrev Word := BitVec 16

/-- `zext_16` of 00_scope.md rule R13: the same unsigned number as a u16. -/
def zext16 {n : Nat} (v : BitVec n) : Word := v.setWidth 16

end Sys2Proof
end

