-- ==== Sys2Proof/Config.lean ====
section
/-! DEFINITION. What is fixed for the machine: the implementation parameters of 00_scope.md rule R10, the fixed
sizes, and the one free value (the random draws). The parameters' default values are in Machine/Defaults.lean. -/

namespace Sys2Proof

/-- `SYS_MODE` (00_scope.md rule R10, decision D8): what the words `0nnn` other than 00E0 and 00EE decode to. -/
inductive SysMode where
  | nop
  | fault
  deriving DecidableEq, Repr

/-- `QUIRK_SHIFT_SRC` (rule R10, decision D15): the register SHR and SHL shift. -/
inductive ShiftSource where
  | vx
  | vy
  deriving DecidableEq, Repr

/-- `QUIRK_MEM_I_INC` (rule R10, decision D17): what LD [I] and LD Vx,[I] add to I afterwards. -/
inductive IndexIncrement where
  | none
  | xPlus1
  | x
  deriving DecidableEq, Repr

/-- `QUIRK_JUMP_REG` (rule R10, decision D18): the register JP V0 adds. -/
inductive JumpRegister where
  | v0
  | vx
  deriving DecidableEq, Repr

/-- `QUIRK_DRAW_EDGE` (rule R10, decision D19): what DRW does past the right and bottom edges. -/
inductive DrawEdge where
  | wrap
  | clip
  deriving DecidableEq, Repr

/-- The rows of 00_scope.md rule R10 marked `parameter`: "A model takes the rows marked `parameter` as arguments". -/
structure Params where
  /-- `STACK_DEPTH`, at least 16 (decision D3). -/
  stackDepth : Nat
  /-- `FONT_START_ADDR` (decision D5). -/
  fontStart : Addr
  /-- `FONT_DATA`, 80 bytes (decision D6). -/
  fontData : List Byte
  sysMode : SysMode
  shiftSrc : ShiftSource
  /-- `QUIRK_LOGIC_VF_RESET` (decision D16). -/
  logicVfReset : Bool
  memIInc : IndexIncrement
  jumpReg : JumpRegister
  drawEdge : DrawEdge
  deriving DecidableEq, Repr

/-- `MEM_SIZE` (rule R10): 4096 bytes, addresses 0x000 to 0xFFF. -/
def memSize : Nat := 4096

/-- `FB_WIDTH` (rule R10). -/
def fbWidth : Nat := 64

/-- `FB_HEIGHT` (rule R10). -/
def fbHeight : Nat := 32

/-- `ROM_START_ADDR` (rule R10): where the program is loaded and where PC starts. -/
def romStart : Nat := 0x200

/-- The largest PC whose two instruction bytes lie in memory (40_cycle.md rule R71). -/
def lastFetch : Nat := 0xFFE

/-- `Rand8()` of 60_exceptions.md rule R133: the value of the n-th random draw, a FREE VALUE ("A model takes each
draw as a free input under no law"). It has no body that Lean can evaluate, so no proof can rest on a value of it. Log 1. -/
opaque Config.randomByte : Nat → Byte

end Sys2Proof
end

