-- ==== Sys2Proof/Syntax.lean ====
section
/-! DEFINITION. The 35 instructions, one constructor for each row of spec/opcode_table.json, in the order and under the
names of 30_encoding.md rules R59 and R60. Operands are the fields of rule R55, at the field's own width. -/

namespace Sys2Proof

/-- The instructions of CHIP-8 (30_encoding.md rule R59). Each constructor's comment gives its pattern and its rule. -/
inductive Instr where
  /-- `0nnn`, SYS nnn (R77). -/
  | sys (nnn : Addr)
  /-- `00E0`, CLS (R107). -/
  | cls
  /-- `00EE`, RET (R78). -/
  | ret
  /-- `1nnn`, JP nnn (R79). -/
  | jp (nnn : Addr)
  /-- `2nnn`, CALL nnn (R80). -/
  | call (nnn : Addr)
  /-- `3xkk`, SE Vx, kk (R81). -/
  | seImm (x : Nibble) (kk : Byte)
  /-- `4xkk`, SNE Vx, kk (R82). -/
  | sneImm (x : Nibble) (kk : Byte)
  /-- `5xy0`, SE Vx, Vy (R83). -/
  | seReg (x y : Nibble)
  /-- `6xkk`, LD Vx, kk (R88). -/
  | ldImm (x : Nibble) (kk : Byte)
  /-- `7xkk`, ADD Vx, kk (R89). -/
  | addImm (x : Nibble) (kk : Byte)
  /-- `8xy0`, LD Vx, Vy (R90). -/
  | ldReg (x y : Nibble)
  /-- `8xy1`, OR Vx, Vy (R91). -/
  | orReg (x y : Nibble)
  /-- `8xy2`, AND Vx, Vy (R92). -/
  | andReg (x y : Nibble)
  /-- `8xy3`, XOR Vx, Vy (R93). -/
  | xorReg (x y : Nibble)
  /-- `8xy4`, ADD Vx, Vy (R94). -/
  | addReg (x y : Nibble)
  /-- `8xy5`, SUB Vx, Vy (R95). -/
  | sub (x y : Nibble)
  /-- `8xy6`, SHR Vx, with the optional operand Vy (R96). -/
  | shr (x y : Nibble)
  /-- `8xy7`, SUBN Vx, Vy (R97). -/
  | subn (x y : Nibble)
  /-- `8xyE`, SHL Vx, with the optional operand Vy (R98). -/
  | shl (x y : Nibble)
  /-- `9xy0`, SNE Vx, Vy (R84). -/
  | sneReg (x y : Nibble)
  /-- `Annn`, LD I, nnn (R101). -/
  | ldI (nnn : Addr)
  /-- `Bnnn`, JP V0, nnn (R85). -/
  | jpV0 (nnn : Addr)
  /-- `Cxkk`, RND Vx, kk (R99). -/
  | rnd (x : Nibble) (kk : Byte)
  /-- `Dxyn`, DRW Vx, Vy, n (R108). -/
  | drw (x y n : Nibble)
  /-- `Ex9E`, SKP Vx (R110). -/
  | skp (x : Nibble)
  /-- `ExA1`, SKNP Vx (R111). -/
  | sknp (x : Nibble)
  /-- `Fx07`, LD Vx, DT (R112). -/
  | ldVxDT (x : Nibble)
  /-- `Fx0A`, LD Vx, K (R113). -/
  | ldVxK (x : Nibble)
  /-- `Fx15`, LD DT, Vx (R114). -/
  | ldDTVx (x : Nibble)
  /-- `Fx18`, LD ST, Vx (R115). -/
  | ldSTVx (x : Nibble)
  /-- `Fx1E`, ADD I, Vx (R102). -/
  | addIVx (x : Nibble)
  /-- `Fx29`, LD F, Vx (R103). -/
  | ldFVx (x : Nibble)
  /-- `Fx33`, LD B, Vx (R104). -/
  | ldBVx (x : Nibble)
  /-- `Fx55`, LD [I], Vx (R105). -/
  | ldMemVx (x : Nibble)
  /-- `Fx65`, LD Vx, [I] (R106). -/
  | ldVxMem (x : Nibble)
  deriving DecidableEq, Repr

end Sys2Proof
end

