-- ==== Sys2Proof/WellFormed.lean ====
section
/-! DEFINITION. Which instructions and which parameter records are well-formed. The operand widths are the types' own;
what is left to check is the exclusion of the row `0nnn`, and the ranges of the parameters. -/

namespace Sys2Proof

/-- The row `0nnn` "excludes the words 0x00E0 and 0x00EE" (30_encoding.md rules R59, R60): `SYS 0E0` and `SYS 0EE` are no
instructions. Every other operand value is admitted. -/
def Instr.wf : Instr → Bool
  | .sys nnn => nnn != 0x0E0#12 && nnn != 0x0EE#12
  | .cls | .ret | .jp _ | .call _ | .seImm _ _ | .sneImm _ _ | .seReg _ _ | .ldImm _ _ | .addImm _ _
  | .ldReg _ _ | .orReg _ _ | .andReg _ _ | .xorReg _ _ | .addReg _ _ | .sub _ _ | .shr _ _ | .subn _ _
  | .shl _ _ | .sneReg _ _ | .ldI _ | .jpV0 _ | .rnd _ _ | .drw _ _ _ | .skp _ | .sknp _ | .ldVxDT _
  | .ldVxK _ | .ldDTVx _ | .ldSTVx _ | .addIVx _ | .ldFVx _ | .ldBVx _ | .ldMemVx _ | .ldVxMem _ => true

/-- Whether the decoder of mode `m` can give the instruction: with `SYS_MODE = FAULT` no word is a `SYS` (rule R61). -/
def Instr.admitted (m : SysMode) : Instr → Bool
  | .sys _ => m == .nop
  | .cls | .ret | .jp _ | .call _ | .seImm _ _ | .sneImm _ _ | .seReg _ _ | .ldImm _ _ | .addImm _ _
  | .ldReg _ _ | .orReg _ _ | .andReg _ _ | .xorReg _ _ | .addReg _ _ | .sub _ _ | .shr _ _ | .subn _ _
  | .shl _ _ | .sneReg _ _ | .ldI _ | .jpV0 _ | .rnd _ _ | .drw _ _ _ | .skp _ | .sknp _ | .ldVxDT _
  | .ldVxK _ | .ldDTVx _ | .ldSTVx _ | .addIVx _ | .ldFVx _ | .ldBVx _ | .ldMemVx _ | .ldVxMem _ => true

/-- The ranges of 00_scope.md rule R10: at least 16 stack entries ("≥16"), 80 font bytes ("fixed 80-byte sprite table",
20_memory.md rule R39), and the font inside the reserved region 0x000–0x1FF (20_memory.md rule R37). Log 8. -/
def Params.wf (p : Params) : Bool :=
  decide (16 ≤ p.stackDepth) && p.fontData.length == 80 && decide (p.fontStart.toNat + 80 ≤ romStart)

end Sys2Proof
end

