-- ==== Sys2Proof/Decode.lean ====
section
/-! DEFINITION. The decoder of 30_encoding.md rule R60, total on any word and on any bytes, rejecting by name; after it
the encoder from the formats of rule R57 and the map of rule R59; and the assembly form of rule R64. -/

namespace Sys2Proof

/-- Why bytes are no instruction: the rows of 30_encoding.md rule R61, and bytes too few for a word. Log 11. -/
inductive DecodeError where
  /-- `0nnn`, not 00E0 or 00EE, with `SYS_MODE = FAULT`. -/
  | sysWord
  /-- `5xyN` with N ≠ 0. -/
  | skipEqualNibble
  /-- `8xyN` with N in 8, 9, A, B, C, D, F. -/
  | aluFunction
  /-- `9xyN` with N ≠ 0. -/
  | skipNotEqualNibble
  /-- `ExKK` with KK not 9E or A1. -/
  | keyFunction
  /-- `FxKK` with KK not one of the nine function codes. -/
  | miscFunction
  /-- Fewer than the two bytes of a word (rule R54). -/
  | truncated
  deriving DecidableEq, Repr

/-! ## Fields (rule R55) -/

/-- `op`, w[15:12]. -/
def fieldOp (w : Word) : Nibble := w.extractLsb' 12 4

/-- `x`, w[11:8]. -/
def fieldX (w : Word) : Nibble := w.extractLsb' 8 4

/-- `y`, w[7:4]. -/
def fieldY (w : Word) : Nibble := w.extractLsb' 4 4

/-- `n`, w[3:0]. -/
def fieldN (w : Word) : Nibble := w.extractLsb' 0 4

/-- `kk`, w[7:0]. -/
def fieldKK (w : Word) : Byte := w.extractLsb' 0 8

/-- `nnn`, w[11:0]. -/
def fieldNNN (w : Word) : Addr := w.extractLsb' 0 12

/-! ## Decoding (rule R60) -/

/-- Family 0: CLS and RET are tested before SYS (rule R60). -/
def decodeFamily0 (m : SysMode) (w : Word) : Except DecodeError Instr :=
  if w = 0x00E0#16 then .ok .cls
  else if w = 0x00EE#16 then .ok .ret
  else match m with
    | .nop => .ok (.sys (fieldNNN w))
    | .fault => .error .sysWord

/-- Family 8: the function code is the low nibble. -/
def decodeFamily8 (w : Word) : Except DecodeError Instr :=
  match (fieldN w).toNat with
  | 0x0 => .ok (.ldReg (fieldX w) (fieldY w))
  | 0x1 => .ok (.orReg (fieldX w) (fieldY w))
  | 0x2 => .ok (.andReg (fieldX w) (fieldY w))
  | 0x3 => .ok (.xorReg (fieldX w) (fieldY w))
  | 0x4 => .ok (.addReg (fieldX w) (fieldY w))
  | 0x5 => .ok (.sub (fieldX w) (fieldY w))
  | 0x6 => .ok (.shr (fieldX w) (fieldY w))
  | 0x7 => .ok (.subn (fieldX w) (fieldY w))
  | 0xE => .ok (.shl (fieldX w) (fieldY w))
  | _ => .error .aluFunction

/-- Family E: the function code is the low byte. -/
def decodeFamilyE (w : Word) : Except DecodeError Instr :=
  match (fieldKK w).toNat with
  | 0x9E => .ok (.skp (fieldX w))
  | 0xA1 => .ok (.sknp (fieldX w))
  | _ => .error .keyFunction

/-- Family F: the function code is the low byte. -/
def decodeFamilyF (w : Word) : Except DecodeError Instr :=
  match (fieldKK w).toNat with
  | 0x07 => .ok (.ldVxDT (fieldX w))
  | 0x0A => .ok (.ldVxK (fieldX w))
  | 0x15 => .ok (.ldDTVx (fieldX w))
  | 0x18 => .ok (.ldSTVx (fieldX w))
  | 0x1E => .ok (.addIVx (fieldX w))
  | 0x29 => .ok (.ldFVx (fieldX w))
  | 0x33 => .ok (.ldBVx (fieldX w))
  | 0x55 => .ok (.ldMemVx (fieldX w))
  | 0x65 => .ok (.ldVxMem (fieldX w))
  | _ => .error .miscFunction

/-- `decode(w)` of rule R60: every word gives one instruction or is ILLEGAL, by name. Family F is the last arm. -/
def decode (m : SysMode) (w : Word) : Except DecodeError Instr :=
  match (fieldOp w).toNat with
  | 0x0 => decodeFamily0 m w
  | 0x1 => .ok (.jp (fieldNNN w))
  | 0x2 => .ok (.call (fieldNNN w))
  | 0x3 => .ok (.seImm (fieldX w) (fieldKK w))
  | 0x4 => .ok (.sneImm (fieldX w) (fieldKK w))
  | 0x5 => if fieldN w = 0#4 then .ok (.seReg (fieldX w) (fieldY w)) else .error .skipEqualNibble
  | 0x6 => .ok (.ldImm (fieldX w) (fieldKK w))
  | 0x7 => .ok (.addImm (fieldX w) (fieldKK w))
  | 0x8 => decodeFamily8 w
  | 0x9 => if fieldN w = 0#4 then .ok (.sneReg (fieldX w) (fieldY w)) else .error .skipNotEqualNibble
  | 0xA => .ok (.ldI (fieldNNN w))
  | 0xB => .ok (.jpV0 (fieldNNN w))
  | 0xC => .ok (.rnd (fieldX w) (fieldKK w))
  | 0xD => .ok (.drw (fieldX w) (fieldY w) (fieldN w))
  | 0xE => decodeFamilyE w
  | _ => decodeFamilyF w

/-- Two bytes as a word, big-endian: the byte at the lower address is bits 15..8 (20_memory.md rule R40). -/
def wordOfBytes (hi lo : Byte) : Word := hi ++ lo

/-- The decoder on bytes: the first two are the word, the rest is given back (rule R54: every instruction is 2 bytes). -/
def decodeBytes (m : SysMode) : List Byte → Except DecodeError (Instr × List Byte)
  | hi :: lo :: rest =>
    match decode m (wordOfBytes hi lo) with
    | .ok i => .ok (i, rest)
    | .error e => .error e
  | [_] => .error .truncated
  | [] => .error .truncated

/-- The high byte of a word, stored at the lower address (rule R40). -/
def highByte (w : Word) : Byte := w.extractLsb' 8 8

/-- The low byte of a word, stored at the higher address (rule R40). -/
def lowByte (w : Word) : Byte := w.extractLsb' 0 8

/-- The word the host's bit numbering gives: the low `nbits` bits of `w`, every bit above them 0. -/
def tableWord (nbits w : Nat) : Word := BitVec.ofNat 16 (w % 2 ^ nbits)

/-- What the decoder, with the default `SYS_MODE = NOP`, reads from the two bytes of a table word. -/
def decodeTableWord (nbits w : Nat) : Option Instr :=
  match decodeBytes .nop [highByte (tableWord nbits w), lowByte (tableWord nbits w)] with
  | .ok (i, _) => some i
  | .error _ => none

/-! ## Encoding (the formats of rule R57, the map of rule R59) -/

/-- Format NNN: op[15:12] nnn[11:0]. -/
def formatNNN (op : Nibble) (nnn : Addr) : Word := op ++ nnn

/-- Format XKK: op[15:12] x[11:8] kk[7:0]; format XFF is the same with a fixed function code in kk. -/
def formatXKK (op x : Nibble) (kk : Byte) : Word := (op ++ x : Byte) ++ kk

/-- Formats XYF and XYN: op[15:12] x[11:8] y[7:4] n[3:0], the last a fixed function code in XYF. -/
def formatXYN (op x y n : Nibble) : Word := (op ++ x : Byte) ++ (y ++ n : Byte)

/-- The word of an instruction (rules R57, R59). -/
def encode : Instr → Word
  | .sys nnn => formatNNN 0x0#4 nnn
  | .cls => 0x00E0#16
  | .ret => 0x00EE#16
  | .jp nnn => formatNNN 0x1#4 nnn
  | .call nnn => formatNNN 0x2#4 nnn
  | .seImm x kk => formatXKK 0x3#4 x kk
  | .sneImm x kk => formatXKK 0x4#4 x kk
  | .seReg x y => formatXYN 0x5#4 x y 0x0#4
  | .ldImm x kk => formatXKK 0x6#4 x kk
  | .addImm x kk => formatXKK 0x7#4 x kk
  | .ldReg x y => formatXYN 0x8#4 x y 0x0#4
  | .orReg x y => formatXYN 0x8#4 x y 0x1#4
  | .andReg x y => formatXYN 0x8#4 x y 0x2#4
  | .xorReg x y => formatXYN 0x8#4 x y 0x3#4
  | .addReg x y => formatXYN 0x8#4 x y 0x4#4
  | .sub x y => formatXYN 0x8#4 x y 0x5#4
  | .shr x y => formatXYN 0x8#4 x y 0x6#4
  | .subn x y => formatXYN 0x8#4 x y 0x7#4
  | .shl x y => formatXYN 0x8#4 x y 0xE#4
  | .sneReg x y => formatXYN 0x9#4 x y 0x0#4
  | .ldI nnn => formatNNN 0xA#4 nnn
  | .jpV0 nnn => formatNNN 0xB#4 nnn
  | .rnd x kk => formatXKK 0xC#4 x kk
  | .drw x y n => formatXYN 0xD#4 x y n
  | .skp x => formatXKK 0xE#4 x 0x9E#8
  | .sknp x => formatXKK 0xE#4 x 0xA1#8
  | .ldVxDT x => formatXKK 0xF#4 x 0x07#8
  | .ldVxK x => formatXKK 0xF#4 x 0x0A#8
  | .ldDTVx x => formatXKK 0xF#4 x 0x15#8
  | .ldSTVx x => formatXKK 0xF#4 x 0x18#8
  | .addIVx x => formatXKK 0xF#4 x 0x1E#8
  | .ldFVx x => formatXKK 0xF#4 x 0x29#8
  | .ldBVx x => formatXKK 0xF#4 x 0x33#8
  | .ldMemVx x => formatXKK 0xF#4 x 0x55#8
  | .ldVxMem x => formatXKK 0xF#4 x 0x65#8

/-- The two bytes of an instruction, in the order memory holds them (rule R40). -/
def encodeBytes (i : Instr) : List Byte := [highByte (encode i), lowByte (encode i)]

/-! ## Assembly form (rule R64) -/

/-- The operand forms of rule R64: a register `V0`..`VF`, the immediates `kk`, `nnn`, `n`, and the fixed operands. -/
inductive AsmOperand where
  | reg (x : Nibble)
  | byte (kk : Byte)
  | addr (nnn : Addr)
  | count (n : Nibble)
  | index
  | delayTimer
  | soundTimer
  | key
  | font
  | bcd
  | indexed
  deriving DecidableEq, Repr

/-- The mnemonic and the operands of an instruction, in the order rule R64 and the map of rule R59 write them. SHR and SHL
are "written with the optional `, Vy` operand that the encoding carries". -/
def Instr.assembly : Instr → String × List AsmOperand
  | .sys nnn => ("SYS", [.addr nnn])
  | .cls => ("CLS", [])
  | .ret => ("RET", [])
  | .jp nnn => ("JP", [.addr nnn])
  | .call nnn => ("CALL", [.addr nnn])
  | .seImm x kk => ("SE", [.reg x, .byte kk])
  | .sneImm x kk => ("SNE", [.reg x, .byte kk])
  | .seReg x y => ("SE", [.reg x, .reg y])
  | .ldImm x kk => ("LD", [.reg x, .byte kk])
  | .addImm x kk => ("ADD", [.reg x, .byte kk])
  | .ldReg x y => ("LD", [.reg x, .reg y])
  | .orReg x y => ("OR", [.reg x, .reg y])
  | .andReg x y => ("AND", [.reg x, .reg y])
  | .xorReg x y => ("XOR", [.reg x, .reg y])
  | .addReg x y => ("ADD", [.reg x, .reg y])
  | .sub x y => ("SUB", [.reg x, .reg y])
  | .shr x y => ("SHR", [.reg x, .reg y])
  | .subn x y => ("SUBN", [.reg x, .reg y])
  | .shl x y => ("SHL", [.reg x, .reg y])
  | .sneReg x y => ("SNE", [.reg x, .reg y])
  | .ldI nnn => ("LD", [.index, .addr nnn])
  | .jpV0 nnn => ("JP", [.reg 0x0#4, .addr nnn])
  | .rnd x kk => ("RND", [.reg x, .byte kk])
  | .drw x y n => ("DRW", [.reg x, .reg y, .count n])
  | .skp x => ("SKP", [.reg x])
  | .sknp x => ("SKNP", [.reg x])
  | .ldVxDT x => ("LD", [.reg x, .delayTimer])
  | .ldVxK x => ("LD", [.reg x, .key])
  | .ldDTVx x => ("LD", [.delayTimer, .reg x])
  | .ldSTVx x => ("LD", [.soundTimer, .reg x])
  | .addIVx x => ("ADD", [.index, .reg x])
  | .ldFVx x => ("LD", [.font, .reg x])
  | .ldBVx x => ("LD", [.bcd, .reg x])
  | .ldMemVx x => ("LD", [.indexed, .reg x])
  | .ldVxMem x => ("LD", [.reg x, .indexed])

end Sys2Proof
end

