-- ==== Sys2Proof/Machine/Defaults.lean ====
section
/-! DEFINITION. The default value of each implementation parameter (00_scope.md rule R10) and the font table
(20_memory.md rule R39). -/

namespace Sys2Proof

/-- The standard CHIP-8 font, glyphs 0 to 7, five rows each (20_memory.md rule R39). -/
def fontGlyphs0to7 : List Byte :=
  [0xF0, 0x90, 0x90, 0x90, 0xF0] ++ [0x20, 0x60, 0x20, 0x20, 0x70] ++
  [0xF0, 0x10, 0xF0, 0x80, 0xF0] ++ [0xF0, 0x10, 0xF0, 0x10, 0xF0] ++
  [0x90, 0x90, 0xF0, 0x10, 0x10] ++ [0xF0, 0x80, 0xF0, 0x10, 0xF0] ++
  [0xF0, 0x80, 0xF0, 0x90, 0xF0] ++ [0xF0, 0x10, 0x20, 0x40, 0x40]

/-- The standard CHIP-8 font, glyphs 8 to F, five rows each (20_memory.md rule R39). -/
def fontGlyphs8toF : List Byte :=
  [0xF0, 0x90, 0xF0, 0x90, 0xF0] ++ [0xF0, 0x90, 0xF0, 0x10, 0xF0] ++
  [0xF0, 0x90, 0xF0, 0x90, 0x90] ++ [0xE0, 0x90, 0xE0, 0x90, 0xE0] ++
  [0xF0, 0x80, 0x80, 0x80, 0xF0] ++ [0xE0, 0x90, 0x90, 0x90, 0xE0] ++
  [0xF0, 0x80, 0xF0, 0x80, 0xF0] ++ [0xF0, 0x80, 0xF0, 0x80, 0x80]

/-- The value column of 00_scope.md rule R10. -/
def Params.standard : Params where
  stackDepth := 16
  fontStart := 0x050#12
  fontData := fontGlyphs0to7 ++ fontGlyphs8toF
  sysMode := .nop
  shiftSrc := .vx
  logicVfReset := false
  memIInc := .none
  jumpReg := .v0
  drawEdge := .wrap

end Sys2Proof
end

