-- ==== Sys2Proof/Machine/State.lean ====
section
/-! DEFINITION. The state of the core (10_state.md), as plain data, its reset value, and the reasons a step can stop. -/

namespace Sys2Proof.Machine

/-- `STATUS`: "exactly two reachable values for this core's scope" (10_state.md rule R27). -/
inductive Status where
  | running
  | error
  deriving DecidableEq, Repr

/-- The causes of ExecutionFault (60_exceptions.md rule R117): an annotation of the model, not visible on the hardware
(10_state.md rule R28). -/
inductive Cause where
  | none
  | unknownOpcode
  | stackOverflow
  | stackUnderflow
  | fetchOutOfBounds
  deriving DecidableEq, Repr

/-- The cause code of 60_exceptions.md rule R117. -/
def Cause.code : Cause → Nat
  | .none => 0
  | .unknownOpcode => 1
  | .stackOverflow => 2
  | .stackUnderflow => 3
  | .fetchOutOfBounds => 4

/-- Memory M (10_state.md rule R30) as address and byte pairs in one canonical form: addresses strictly rising, and
no entry equal to what an unlisted address reads as (`Memory.wf` in Machine/Ops.lean). Log 6. -/
abbrev Memory := List Host.Cell

/-- The framebuffer FB (10_state.md rule R31), 64×32 pixels of 1 bit: entry y is row y, its bit x the pixel at column x, so that
FB[p] with p = x + 64*y is bit p mod 64 of entry p div 64. Log 3. -/
abbrev Framebuffer := Vector (BitVec 64) 32

/-- The stops by a fault. There is none: an ExecutionFault is a next state with STATUS = ERROR (60_exceptions.md rule R118), and
the ISA has no instruction without an effect. Log 9. -/
inductive Fault
  deriving DecidableEq, Repr

/-- The stops by a refusal. No instruction raises one; the host interface (Machine/Driver.lean) does. -/
inductive Refusal where
  /-- An instruction that has no meaning yet, by its mnemonic: raised by `exec` only, safe. No arm of this model raises it. -/
  | notModelled (mnemonic : String)
  /-- An operation other than RESET before the first RESET (70_reset_and_hazards.md rule R140, 93 U14): raised by
  `Session.apply`, safe. -/
  | beforeReset
  /-- `HOST_WRITE` after the first STEP (20_memory.md rule R47, 93 U15): raised by `Session.apply`, safe. -/
  | hostWriteOutsideBoot
  /-- `HOST_WRITE` above 0xFFF (20_memory.md rule R47, 93 U15, U16): raised by `hostWrite`, safe. -/
  | hostWriteOutOfRange
  deriving DecidableEq, Repr

/-- The complete architectural state (10_state.md rule R18), and below it the model's own three fields. -/
structure State where
  /-- M[0..4095] (rule R30). -/
  mem : Memory
  /-- V[0..15] (rule R20). -/
  v : Vector Byte 16
  /-- I (rule R24). -/
  regI : Word
  /-- PC (rule R23). -/
  pc : Word
  /-- STACK[0..STACK_DEPTH-1] (rule R25). -/
  stack : List Word
  /-- SP, the number of live entries (rule R25). -/
  sp : Nat
  /-- DT (rule R29). -/
  dt : Byte
  /-- ST (rule R29). -/
  st : Byte
  /-- FB[0..2047] (rule R31). -/
  fb : Framebuffer
  /-- STATUS (rule R27). -/
  status : Status
  /-- KEY[0..15], bit k for key k (rule R32). -/
  key : BitVec 16
  /-- The model's annotation of the fault cause (rule R28). -/
  cause : Cause
  /-- The model's counter of random draws taken; draw k has the free value `Config.randomByte k`. Log 1. -/
  draws : Nat
  /-- The model's copy of the implementation parameters (00_scope.md rule R10), which nothing writes. Log 2. -/
  params : Params
  deriving DecidableEq, Repr

/-- The state `RESET` gives (70_reset_and_hazards.md rule R137), for the parameters, the keypad and the draw counter that it
does not change. -/
def State.afterReset (params : Params) (key : BitVec 16) (draws : Nat) : State where
  mem := []
  v := Vector.replicate 16 0x00#8
  regI := 0x0000#16
  pc := BitVec.ofNat 16 romStart
  stack := List.replicate params.stackDepth 0x0000#16
  sp := 0
  dt := 0x00#8
  st := 0x00#8
  fb := Vector.replicate 32 0#64
  status := .running
  key := key
  cause := .none
  draws := draws
  params := params

/-- The machine right after reset, with the default parameters and the keypad "all 0" of power-on (rules R137, R140). Log 12. -/
def State.reset : State := State.afterReset Params.standard 0x0000#16 0

end Sys2Proof.Machine
end

