-- ==== Sys2Proof/Machine/Ops.lean ====
section
/-! DEFINITION. The named operations over memory, registers, the program counter, the stack and the framebuffer, which every
meaning is written over; raising an ExecutionFault, the one exception of the core, and RESET, the one way out of it. -/

namespace Sys2Proof.Machine

/-! ## Memory (20_memory.md) -/

/-- What an unlisted address reads as: `RESET` zeroes memory (10_state.md rule R30). -/
def Memory.unlisted : Byte := 0x00#8

/-- M[a] (00_scope.md rule R14). -/
def Memory.read : Memory → Nat → Byte
  | [], _ => Memory.unlisted
  | (k, b) :: rest, a => if a = k then b else Memory.read rest a

/-- `M[a] <- b`, keeping the canonical form: addresses rising, no entry equal to what an unlisted address reads as. -/
def Memory.write : Memory → Nat → Byte → Memory
  | [], a, b => if b = Memory.unlisted then [] else [(a, b)]
  | (k, c) :: rest, a, b =>
    if a < k then (if b = Memory.unlisted then (k, c) :: rest else (a, b) :: (k, c) :: rest)
    else if a = k then (if b = Memory.unlisted then rest else (a, b) :: rest)
    else (k, c) :: Memory.write rest a b

/-- Every listed address is at least `lo`, inside memory, above the one before it, and its byte is not the unlisted one. -/
def Memory.wfFrom : Nat → Memory → Bool
  | _, [] => true
  | lo, (k, b) :: rest => decide (lo ≤ k) && decide (k < memSize) && b != Memory.unlisted && Memory.wfFrom (k + 1) rest

/-- The canonical form, over the addresses 0x000 to 0xFFF (20_memory.md rule R35). -/
def Memory.wf (m : Memory) : Bool := Memory.wfFrom 0 m

/-- `s` with memory `m`. -/
def State.setMem (m : Memory) (s : State) : State := { s with mem := m }

/-! ## Registers (10_state.md) -/

/-- V[x] (rule R20): no register is hardwired. -/
def State.getV (s : State) (x : Nibble) : Byte := s.v[x.toNat]'x.isLt

/-- `V[x] <- b`. -/
def State.setV (x : Nibble) (b : Byte) (s : State) : State := { s with v := s.v.set x.toNat b x.isLt }

/-- The index of VF, the flag register (rule R22). -/
def vf : Nibble := 0xF#4

/-- `I <- w` (rule R24). -/
def State.setI (w : Word) (s : State) : State := { s with regI := w }

/-- `DT <- b` (rule R29). -/
def State.setDT (b : Byte) (s : State) : State := { s with dt := b }

/-- `ST <- b` (rule R29). -/
def State.setST (b : Byte) (s : State) : State := { s with st := b }

/-- The keypad as the host last wrote it (rule R32). -/
def State.setKey (k : BitVec 16) (s : State) : State := { s with key := k }

/-- One random draw is used up: the next one is another free value (60_exceptions.md rule R133). -/
def State.countDraw (s : State) : State := { s with draws := s.draws + 1 }

/-! ## The program counter (40_cycle.md rule R73) -/

/-- `pc <- target`. -/
def State.setPC (target : Word) (s : State) : State := { s with pc := target }

/-- Successor `next`: PC + 2, modulo 2^16. -/
def State.advance (s : State) : State := s.setPC (s.pc + 2#16)

/-- Successor `skip` (PC + 4) when the condition holds, else `next`. -/
def State.skipWhen (taken : Bool) (s : State) : State := if taken then s.setPC (s.pc + 4#16) else s.advance

/-! ## The stack (10_state.md rule R25) -/

/-- `STACK[SP] <- w; SP <- SP + 1`. -/
def State.push (w : Word) (s : State) : State := { s with stack := s.stack.set s.sp w, sp := s.sp + 1 }

/-- STACK[SP - 1], the most recent return address; 0 where no such entry is stored, which a state with SP at most STACK_DEPTH
never reaches. Log 10. -/
def State.topOfStack (s : State) : Word := s.stack.getD (s.sp - 1) 0x0000#16

/-- `SP <- SP - 1`: the popped entry keeps its value (41_flow.md rule R78). -/
def State.pop (s : State) : State := { s with sp := s.sp - 1 }

/-! ## The framebuffer (10_state.md rule R31) -/

/-- FB[p], p = x + 64*y; false for a p that is no pixel. -/
def Framebuffer.pixel (fb : Framebuffer) (p : Nat) : Bool :=
  if h : p / 64 < 32 then (fb[p / 64]'h).getLsbD (p % 64) else false

/-- `FB[p] <- FB[p] ^ 1`; nothing for a p that is no pixel. -/
def Framebuffer.flip (fb : Framebuffer) (p : Nat) : Framebuffer :=
  if h : p / 64 < 32 then fb.set (p / 64) (fb[p / 64]'h ^^^ BitVec.twoPow 64 (p % 64)) h else fb

/-- Every pixel 0. -/
def Framebuffer.clear : Framebuffer := Vector.replicate 32 0#64

/-- `s` with framebuffer `fb`. -/
def State.setFB (fb : Framebuffer) (s : State) : State := { s with fb := fb }

/-! ## ExecutionFault and RESET (60_exceptions.md, 70_reset_and_hazards.md) -/

/-- `raise ExecutionFault(cause)`: STATUS <- ERROR and the cause annotation; "every other component of the state, PC included,
keeps the value it had" (60_exceptions.md rule R118). -/
def State.raise (cause : Cause) (s : State) : State := { s with status := .error, cause := cause }

/-- `RESET`, the only return from ERROR (70_reset_and_hazards.md rules R137, R138): every component at its reset value but
KEY, which "is not changed", and the model's draw counter and parameters, which are none of the core's state. -/
def State.resetOp (s : State) : State := State.afterReset s.params s.key s.draws

end Sys2Proof.Machine
end

