-- ==== Sys2Proof/Machine/Operands.lean ====
section
/-! DEFINITION. Every operand form of the ISA: the masked data address, the digit and key selected by a low nibble, the
register a parameter selects, and the values the index register takes. -/

namespace Sys2Proof.Machine

/-- The address of the k-th byte of a data access, `(I + k) & 0xFFF` (20_memory.md rule R42; 43_index_memory.md rule R100). -/
def dataAddr (base : Word) (k : Nat) : Nat := (base.toNat + k) % memSize

/-- `MemRead(I + k, 1)` (00_scope.md rule R15). -/
def State.readData (s : State) (k : Nat) : Byte := s.mem.read (dataAddr s.regI k)

/-- The first n bytes at I, in the order they are read (20_memory.md rule R44). -/
def State.readBytes (s : State) (n : Nat) : List Byte := (List.range n).map s.readData

/-- `MemWrite(base + k, 1, b)` for each of the bytes, k ascending (00_scope.md rule R15; 20_memory.md rule R44). -/
def storeBytes (base : Word) : Nat → List Byte → Memory → Memory
  | _, [], m => m
  | k, b :: rest, m => storeBytes base (k + 1) rest (m.write (dataAddr base k) b)

/-- V[0] to V[n-1]. -/
def State.firstRegs (s : State) (n : Nat) : List Byte := (List.range n).map fun k => s.getV (BitVec.ofNat 4 k)

/-- `V[k] <- b` for each of the bytes, from register k on, ascending. -/
def State.loadRegs : Nat → List Byte → State → State
  | _, [], s => s
  | k, b :: rest, s => State.loadRegs (k + 1) rest (s.setV (BitVec.ofNat 4 k) b)

/-- I after LD [I] or LD Vx,[I] with last register x, by `QUIRK_MEM_I_INC` (43_index_memory.md rules R105, R106). -/
def indexAfterTransfer (inc : IndexIncrement) (base : Word) (x : Nibble) : Word :=
  match inc with
  | .none => base
  | .xPlus1 => base + zext16 x + 1#16
  | .x => base + zext16 x

/-- The low nibble of a register, the digit of LD F and the key of the key instructions (43_index_memory.md rule R103;
45_timer_keypad.md rule R109). -/
def lowNibble (b : Byte) : Nat := b.toNat % 16

/-- `FONT_START_ADDR + 5 * (V[x] & 0x0F)` (43_index_memory.md rule R103). -/
def glyphAddr (fontStart : Addr) (b : Byte) : Word := BitVec.ofNat 16 (fontStart.toNat + 5 * lowNibble b)

/-- The three decimal digits, hundreds first (43_index_memory.md rule R104). -/
def bcdDigits (b : Byte) : List Byte :=
  [BitVec.ofNat 8 (b.toNat / 100), BitVec.ofNat 8 (b.toNat / 10 % 10), BitVec.ofNat 8 (b.toNat % 10)]

/-- KEY[k] (10_state.md rule R32). -/
def State.keyHeld (s : State) (k : Nat) : Bool := s.key.getLsbD k

/-- The smallest k with KEY[k] = 1, if any (45_timer_keypad.md rule R113). -/
def State.lowestKey (s : State) : Option Nat := (List.range 16).find? s.keyHeld

/-- The source of SHR and SHL, by `QUIRK_SHIFT_SRC` (42_alu.md rules R96, R98). -/
def State.shiftSource (s : State) (x y : Nibble) : Byte :=
  match s.params.shiftSrc with
  | .vx => s.getV x
  | .vy => s.getV y

/-- The register JP V0 adds, by `QUIRK_JUMP_REG`: V0, or V[nnn[11:8]] (41_flow.md rule R85). -/
def State.jumpOffset (s : State) (nnn : Addr) : Byte :=
  match s.params.jumpReg with
  | .v0 => s.getV 0x0#4
  | .vx => s.getV (nnn.extractLsb' 8 4)

/-- The masked target `(zext_16(nnn) + V) & 0xFFF` (41_flow.md rule R85). -/
def jumpTarget (nnn : Addr) (offset : Byte) : Word := (zext16 nnn + zext16 offset) &&& 0x0FFF#16

end Sys2Proof.Machine
end

