-- ==== Sys2Proof/Machine/Flags.lean ====
section
/-! DEFINITION. Every flag computation of the ISA. The flag is VF, computed from the operands before the instruction and
written after the result (42_alu.md rule R87; 00_scope.md rule R16). -/

namespace Sys2Proof.Machine

/-- `bool(c)` as a u8 (00_scope.md rule R13). -/
def flagByte (c : Bool) : Byte := if c then 0x01#8 else 0x00#8

/-- The carry of ADD Vx, Vy: the unbounded sum exceeds 255 (42_alu.md rule R94). -/
def addCarry (a b : Byte) : Bool := decide (a.toNat + b.toNat > 255)

/-- No borrow in a - b: a ≥ b (42_alu.md rules R95, R97). -/
def noBorrow (a b : Byte) : Bool := decide (a.toNat ≥ b.toNat)

/-- The bit SHR shifts out, bit 0 (42_alu.md rule R96). -/
def shiftedOutRight (src : Byte) : Bool := src.getLsbD 0

/-- The bit SHL shifts out, bit 7 (42_alu.md rule R98). -/
def shiftedOutLeft (src : Byte) : Bool := src.getLsbD 7

/-- `VF <- bool(c)`. -/
def State.setFlag (c : Bool) (s : State) : State := s.setV vf (flagByte c)

/-- `V[x] <- result; VF <- flag`, in that order, so that with x = 0xF the flag is what stays (42_alu.md rule R87). -/
def State.setResultAndFlag (x : Nibble) (result : Byte) (flag : Bool) (s : State) : State :=
  (s.setV x result).setFlag flag

/-- `V[x] <- result; if QUIRK_LOGIC_VF_RESET then VF <- 0` (42_alu.md rules R91 to R93). -/
def State.setLogicResult (x : Nibble) (result : Byte) (s : State) : State :=
  if s.params.logicVfReset then s.setResultAndFlag x result false else s.setV x result

end Sys2Proof.Machine
end

