-- ==== Sys2Proof/Machine/Alu.lean ====
section
/-! DEFINITION. The register load and arithmetic instructions (42_alu.md). All arithmetic is modulo 256 (rule R86), and every
one ends with `pc <- PC + 2`. -/

namespace Sys2Proof.Machine

/-- `LD Vx, kk` (rule R88). -/
def execLdImm (x : Nibble) (kk : Byte) (s : State) : Host.Outcome State Fault Refusal := .next (s.setV x kk).advance

/-- `ADD Vx, kk` (rule R89): VF is not changed. -/
def execAddImm (x : Nibble) (kk : Byte) (s : State) : Host.Outcome State Fault Refusal :=
  .next (s.setV x (s.getV x + kk)).advance

/-- `LD Vx, Vy` (rule R90). -/
def execLdReg (x y : Nibble) (s : State) : Host.Outcome State Fault Refusal := .next (s.setV x (s.getV y)).advance

/-- `OR Vx, Vy` (rule R91). -/
def execOrReg (x y : Nibble) (s : State) : Host.Outcome State Fault Refusal :=
  .next (s.setLogicResult x (s.getV x ||| s.getV y)).advance

/-- `AND Vx, Vy` (rule R92). -/
def execAndReg (x y : Nibble) (s : State) : Host.Outcome State Fault Refusal :=
  .next (s.setLogicResult x (s.getV x &&& s.getV y)).advance

/-- `XOR Vx, Vy` (rule R93). -/
def execXorReg (x y : Nibble) (s : State) : Host.Outcome State Fault Refusal :=
  .next (s.setLogicResult x (s.getV x ^^^ s.getV y)).advance

/-- `ADD Vx, Vy` (rule R94). -/
def execAddReg (x y : Nibble) (s : State) : Host.Outcome State Fault Refusal :=
  .next (s.setResultAndFlag x (s.getV x + s.getV y) (addCarry (s.getV x) (s.getV y))).advance

/-- `SUB Vx, Vy` (rule R95): a - b with a = V[x], b = V[y]. -/
def execSub (x y : Nibble) (s : State) : Host.Outcome State Fault Refusal :=
  .next (s.setResultAndFlag x (s.getV x - s.getV y) (noBorrow (s.getV x) (s.getV y))).advance

/-- `SHR Vx {, Vy}` (rule R96): a logical shift by one. -/
def execShr (x y : Nibble) (s : State) : Host.Outcome State Fault Refusal :=
  .next (s.setResultAndFlag x (s.shiftSource x y >>> 1) (shiftedOutRight (s.shiftSource x y))).advance

/-- `SUBN Vx, Vy` (rule R97): b - a with a = V[x], b = V[y]. -/
def execSubn (x y : Nibble) (s : State) : Host.Outcome State Fault Refusal :=
  .next (s.setResultAndFlag x (s.getV y - s.getV x) (noBorrow (s.getV y) (s.getV x))).advance

/-- `SHL Vx {, Vy}` (rule R98). -/
def execShl (x y : Nibble) (s : State) : Host.Outcome State Fault Refusal :=
  .next (s.setResultAndFlag x (s.shiftSource x y <<< 1) (shiftedOutLeft (s.shiftSource x y))).advance

/-- `RND Vx, kk` for the draw r: `V[x] <- r & kk` (rule R99). -/
def State.takeDraw (r : Byte) (x : Nibble) (kk : Byte) (s : State) : State := ((s.setV x (r &&& kk)).countDraw).advance

/-- `RND Vx, kk` (rule R99): the draw is the free value of this state's draw counter (60_exceptions.md rule R133). -/
def execRnd (x : Nibble) (kk : Byte) (s : State) : Host.Outcome State Fault Refusal :=
  .next (s.takeDraw (Config.randomByte s.draws) x kk)

end Sys2Proof.Machine
end

