-- ==== Sys2Proof/Machine/Display.lean ====
section
/-! DEFINITION. The framebuffer instructions (44_display.md). -/

namespace Sys2Proof.Machine

/-- The pixel index of the sprite bit in row r, column c of a sprite drawn at (x0, y0), or none where `CLIP` drops it
(rule R108). -/
def spritePixel (edge : DrawEdge) (x0 y0 r c : Nat) : Option Nat :=
  match edge with
  | .wrap => some ((x0 + c) % fbWidth + fbWidth * ((y0 + r) % fbHeight))
  | .clip =>
    if x0 % fbWidth + c ≥ fbWidth ∨ y0 % fbHeight + r ≥ fbHeight then none
    else some (x0 % fbWidth + c + fbWidth * (y0 % fbHeight + r))

/-- A drawing in progress: the framebuffer and the collision bit `col` of rule R108. -/
abbrev Drawing := Framebuffer × Bool

/-- One sprite bit: where it is 1 and not dropped, the pixel is flipped, and `col` becomes 1 if it was lit (rule R108). -/
def drawBit (edge : DrawEdge) (x0 y0 r : Nat) (row : Byte) (c : Nat) (d : Drawing) : Drawing :=
  if row.getLsbD (7 - c) then
    match spritePixel edge x0 y0 r c with
    | some p => (d.1.flip p, d.2 || d.1.pixel p)
    | none => d
  else d

/-- The first n columns of a sprite row, from the left (rule R108, `for c in 0 .. 7`). -/
def drawColumns (edge : DrawEdge) (x0 y0 r : Nat) (row : Byte) : Nat → Drawing → Drawing
  | 0, d => d
  | c + 1, d => drawBit edge x0 y0 r row c (drawColumns edge x0 y0 r row c d)

/-- The rows of a sprite from row r on, from the top (rule R108, `for r in 0 .. n-1`). -/
def drawRows (edge : DrawEdge) (x0 y0 : Nat) : Nat → List Byte → Drawing → Drawing
  | _, [], d => d
  | r, row :: rest, d => drawRows edge x0 y0 (r + 1) rest (drawColumns edge x0 y0 r row 8 d)

/-- `CLS` (rule R107): VF is not changed. -/
def execCls (s : State) : Host.Outcome State Fault Refusal := .next (s.setFB Framebuffer.clear).advance

/-- The drawing of an n-row sprite at (V[x], V[y]) from the bytes at I (rule R108). -/
def State.draw (x y n : Nibble) (s : State) : Drawing :=
  drawRows s.params.drawEdge (s.getV x).toNat (s.getV y).toNat 0 (s.readBytes n.toNat) (s.fb, false)

/-- `DRW Vx, Vy, n` (rule R108): VF is written after every pixel. -/
def execDrw (x y n : Nibble) (s : State) : Host.Outcome State Fault Refusal :=
  .next ((s.setFB (s.draw x y n).1).setFlag (s.draw x y n).2).advance

end Sys2Proof.Machine
end

