-- ==== Sys2Proof/Machine/Flow.lean ====
section
/-! DEFINITION. The control transfer instructions (41_flow.md). -/

namespace Sys2Proof.Machine

/-- `SYS nnn`: a no-op in this core (rule R77). With `SYS_MODE = FAULT` the decoder gives no SYS (30_encoding.md rule R61). -/
def execSys (_nnn : Addr) (s : State) : Host.Outcome State Fault Refusal := .next s.advance

/-- `RET` (rule R78): the return address is used as is, and the popped entry is not cleared. -/
def execRet (s : State) : Host.Outcome State Fault Refusal :=
  if s.sp = 0 then .next (s.raise .stackUnderflow) else .next (s.pop.setPC s.topOfStack)

/-- `JP nnn` (rule R79). -/
def execJp (nnn : Addr) (s : State) : Host.Outcome State Fault Refusal := .next (s.setPC (zext16 nnn))

/-- `CALL nnn` (rule R80): pushes PC + 2. -/
def execCall (nnn : Addr) (s : State) : Host.Outcome State Fault Refusal :=
  if s.sp = s.params.stackDepth then .next (s.raise .stackOverflow)
  else .next ((s.push (s.pc + 2#16)).setPC (zext16 nnn))

/-- `SE Vx, kk` (rule R81). -/
def execSeImm (x : Nibble) (kk : Byte) (s : State) : Host.Outcome State Fault Refusal :=
  .next (s.skipWhen (s.getV x == kk))

/-- `SNE Vx, kk` (rule R82). -/
def execSneImm (x : Nibble) (kk : Byte) (s : State) : Host.Outcome State Fault Refusal :=
  .next (s.skipWhen (s.getV x != kk))

/-- `SE Vx, Vy` (rule R83). -/
def execSeReg (x y : Nibble) (s : State) : Host.Outcome State Fault Refusal :=
  .next (s.skipWhen (s.getV x == s.getV y))

/-- `SNE Vx, Vy` (rule R84). -/
def execSneReg (x y : Nibble) (s : State) : Host.Outcome State Fault Refusal :=
  .next (s.skipWhen (s.getV x != s.getV y))

/-- `JP V0, nnn` (rule R85). -/
def execJpV0 (nnn : Addr) (s : State) : Host.Outcome State Fault Refusal :=
  .next (s.setPC (jumpTarget nnn (s.jumpOffset nnn)))

end Sys2Proof.Machine
end

