-- ==== Sys2Proof/Machine/Index.lean ====
section
/-! DEFINITION. The index register and memory instructions (43_index_memory.md): data addresses are masked, nothing faults. -/

namespace Sys2Proof.Machine

/-- `LD I, nnn` (rule R101). -/
def execLdI (nnn : Addr) (s : State) : Host.Outcome State Fault Refusal := .next (s.setI (zext16 nnn)).advance

/-- `ADD I, Vx` (rule R102): modulo 2^16, VF is not changed. -/
def execAddIVx (x : Nibble) (s : State) : Host.Outcome State Fault Refusal :=
  .next (s.setI (s.regI + zext16 (s.getV x))).advance

/-- `LD F, Vx` (rule R103). -/
def execLdFVx (x : Nibble) (s : State) : Host.Outcome State Fault Refusal :=
  .next (s.setI (glyphAddr s.params.fontStart (s.getV x))).advance

/-- `LD B, Vx` (rule R104). -/
def execLdBVx (x : Nibble) (s : State) : Host.Outcome State Fault Refusal :=
  .next (s.setMem (storeBytes s.regI 0 (bcdDigits (s.getV x)) s.mem)).advance

/-- `LD [I], Vx` (rule R105). -/
def execLdMemVx (x : Nibble) (s : State) : Host.Outcome State Fault Refusal :=
  .next ((s.setMem (storeBytes s.regI 0 (s.firstRegs (x.toNat + 1)) s.mem)).setI
    (indexAfterTransfer s.params.memIInc s.regI x)).advance

/-- `LD Vx, [I]` (rule R106). -/
def execLdVxMem (x : Nibble) (s : State) : Host.Outcome State Fault Refusal :=
  .next ((State.loadRegs 0 (s.readBytes (x.toNat + 1)) s).setI (indexAfterTransfer s.params.memIInc s.regI x)).advance

end Sys2Proof.Machine
end

