-- ==== Sys2Proof/Machine/Input.lean ====
section
/-! DEFINITION. The timer and keypad instructions (45_timer_keypad.md). -/

namespace Sys2Proof.Machine

/-- `SKP Vx` (rule R110). -/
def execSkp (x : Nibble) (s : State) : Host.Outcome State Fault Refusal :=
  .next (s.skipWhen (s.keyHeld (lowNibble (s.getV x))))

/-- `SKNP Vx` (rule R111). -/
def execSknp (x : Nibble) (s : State) : Host.Outcome State Fault Refusal :=
  .next (s.skipWhen (!s.keyHeld (lowNibble (s.getV x))))

/-- `LD Vx, DT` (rule R112). -/
def execLdVxDT (x : Nibble) (s : State) : Host.Outcome State Fault Refusal := .next (s.setV x s.dt).advance

/-- `LD Vx, K` (rule R113): with no key held nothing changes, PC included, and the same instruction is fetched again. -/
def execLdVxK (x : Nibble) (s : State) : Host.Outcome State Fault Refusal :=
  match s.lowestKey with
  | some k => .next (s.setV x (BitVec.ofNat 8 k)).advance
  | none => .next s

/-- `LD DT, Vx` (rule R114). -/
def execLdDTVx (x : Nibble) (s : State) : Host.Outcome State Fault Refusal := .next (s.setDT (s.getV x)).advance

/-- `LD ST, Vx` (rule R115). -/
def execLdSTVx (x : Nibble) (s : State) : Host.Outcome State Fault Refusal := .next (s.setST (s.getV x)).advance

end Sys2Proof.Machine
end

