-- ==== Sys2Proof/Machine/Fetch.lean ====
section
/-! DEFINITION. Fetching and decoding the instruction at PC (40_cycle.md rules R70 to R72), and placing a word there. -/

namespace Sys2Proof.Machine

/-- `Fetch(pc)` (rule R71): both bytes must lie in memory; PC is not masked, and needs no alignment (20_memory.md rule R43). -/
def State.fetchWord (s : State) : Option Word :=
  if s.pc.toNat > lastFetch then none else some (wordOfBytes (s.mem.read s.pc.toNat) (s.mem.read (s.pc.toNat + 1)))

/-- Fetch, then decode: the instruction at PC, or the cause of the fault, in the order of 60_exceptions.md rule R119. -/
def State.fetchInstr (s : State) : Except Cause Instr :=
  match s.fetchWord with
  | none => .error .fetchOutOfBounds
  | some w =>
    match decode s.params.sysMode w with
    | .error _ => .error .unknownOpcode
    | .ok i => .ok i

/-- `s` with the word stored at PC, big-endian, ready to run it: a PC that cannot be fetched from is first set to
`ROM_START_ADDR`, and STATUS to RUNNING. Log 4. -/
def State.placeWord (w : Word) (s : State) : State :=
  let target : Word := if s.pc.toNat > lastFetch then BitVec.ofNat 16 romStart else s.pc
  { s with
    pc := target
    status := .running
    cause := .none
    mem := (s.mem.write target.toNat (highByte w)).write (target.toNat + 1) (lowByte w) }

end Sys2Proof.Machine
end

