-- ==== Sys2Proof/Machine/Step.lean ====
section
/-! DEFINITION. One step of the machine: `STEP(1)`, one fetch-decode-execute iteration (40_cycle.md rules R65, R70). -/

namespace Sys2Proof.Machine

/-- While STATUS = ERROR nothing changes (40_cycle.md rule R66). Else the instruction at PC is fetched, decoded and executed; a
fetch out of bounds or an illegal word raises ExecutionFault (rules R71, R72). -/
def step (s : State) : Host.Outcome State Fault Refusal :=
  match s.status with
  | .error => .next s
  | .running =>
    match s.fetchInstr with
    | .ok i => exec i s
    | .error cause => .next (s.raise cause)

/-- `s` with a word of the opcode table stored where step fetches, so that the next step runs it. Log 4. -/
def State.withFetchWord (s : State) (nbits w : Nat) : State := s.placeWord (tableWord nbits w)

end Sys2Proof.Machine
end

