-- ==== Sys2Proof/Machine/Driver.lean ====
section
/-! DEFINITION. The host interface of 00_scope.md rule R8: the batch driver `STEP(cycles)`, `TICK`, `SET_KEYS`, `HOST_WRITE`,
`RESET`, the outputs the frontend reads, and a session, which says which operations the host may perform when. -/

namespace Sys2Proof.Machine

/-- `STEP(cycles)` (40_cycle.md rule R65): exactly `cycles` iterations, unless STATUS becomes ERROR. -/
def stepBatch : Nat → State → Host.Outcome State Fault Refusal
  | 0, s => .next s
  | n + 1, s =>
    match s.status with
    | .error => .next s
    | .running =>
      match step s with
      | .next t => stepBatch n t
      | .fault r => .fault r
      | .refused r => .refused r

/-- One timer's tick: "A timer at 0 stays at 0 (it does not wrap to 255)" (60_exceptions.md rule R125). -/
def tickTimer (t : Byte) : Byte := if t = 0x00#8 then t else t - 0x01#8

/-- `TICK` (60_exceptions.md rule R125), the same in either STATUS (rule R126). -/
def State.tick (s : State) : State := (s.setDT (tickTimer s.dt)).setST (tickTimer s.st)

/-- `SET_KEYS(k)` (60_exceptions.md rule R130). -/
def State.setKeys (k : BitVec 16) (s : State) : State := s.setKey k

/-- `HOST_WRITE(a, b)` (20_memory.md rule R47): an address above 0xFFF is refused. -/
def hostWrite (a : Nat) (b : Byte) (s : State) : Host.Outcome State Fault Refusal :=
  if a < memSize then .next (s.setMem (s.mem.write a b)) else .refused .hostWriteOutOfRange

/-- The sound output: the tone is on while ST ≠ 0 (60_exceptions.md rule R131). -/
def State.soundOn (s : State) : Bool := s.st != 0x00#8

/-- The display output: pixel FB[x + 64*y] at column x, row y, lit when 1 (60_exceptions.md rule R132). -/
def State.displayPixel (s : State) (x y : Nat) : Bool := s.fb.pixel (x + fbWidth * y)

/-- The operations of 00_scope.md rule R8 that the host invokes. -/
inductive HostOp where
  | reset
  | step (cycles : Nat)
  | tick
  | setKeys (k : BitVec 16)
  | hostWrite (a : Nat) (b : Byte)
  deriving DecidableEq, Repr

/-- Where the host is in the lifecycle (a session starts at `Session.powerOn`): before the first RESET, between a RESET and the first STEP after it, or stepping
(70_reset_and_hazards.md rules R140, R141). -/
inductive Phase where
  | powerOn
  | boot
  | run
  deriving DecidableEq, Repr

/-- A core with the host's phase. Log 5. -/
structure Session where
  core : State
  phase : Phase
  deriving DecidableEq, Repr

/-- The session at power-on: "The state before the first `RESET` is unspecified, except that KEY is all 0"
(70_reset_and_hazards.md rule R140), so every component but KEY is that of an arbitrary `unspecified`. Log 5. -/
def Session.powerOn (unspecified : State) : Session := ⟨unspecified.setKey 0x0000#16, .powerOn⟩

/-- The outcome of an operation on the core, as one of the session. -/
def sessionOf (phase : Phase) (o : Host.Outcome State Fault Refusal) : Host.Outcome Session Fault Refusal :=
  match o with
  | .next s => .next ⟨s, phase⟩
  | .fault r => .fault r
  | .refused r => .refused r

/-- One host operation once a RESET has been performed. `HOST_WRITE` is refused after the first STEP (20_memory.md rule R47). -/
def Session.applyAfterReset (s : Session) : HostOp → Host.Outcome Session Fault Refusal
  | .reset => .next ⟨s.core.resetOp, .boot⟩
  | .step cycles => sessionOf .run (stepBatch cycles s.core)
  | .tick => .next ⟨s.core.tick, s.phase⟩
  | .setKeys k => .next ⟨s.core.setKeys k, s.phase⟩
  | .hostWrite a b =>
    match s.phase with
    | .boot => sessionOf .boot (Sys2Proof.Machine.hostWrite a b s.core)
    | .run => .refused .hostWriteOutsideBoot
    | .powerOn => .refused .beforeReset

/-- One host operation: before the first RESET "no operation but `RESET` has a meaning" (93 U14; rule R140). -/
def Session.apply (s : Session) (op : HostOp) : Host.Outcome Session Fault Refusal :=
  match s.phase, op with
  | .powerOn, .reset => .next ⟨s.core.resetOp, .boot⟩
  | .powerOn, .step _ => .refused .beforeReset
  | .powerOn, .tick => .refused .beforeReset
  | .powerOn, .setKeys _ => .refused .beforeReset
  | .powerOn, .hostWrite _ _ => .refused .beforeReset
  | .boot, op => s.applyAfterReset op
  | .run, op => s.applyAfterReset op

/-- Host operations one after the other, in any order the host chooses (60_exceptions.md rule R127), up to the first refusal. -/
def Session.perform : List HostOp → Session → Host.Outcome Session Fault Refusal
  | [], s => .next s
  | op :: rest, s =>
    match s.apply op with
    | .next t => Session.perform rest t
    | .fault r => .fault r
    | .refused r => .refused r

/-- `HOST_WRITE` of each byte from address `base` on. -/
def writeOps : Nat → List Byte → List HostOp
  | _, [] => []
  | base, b :: rest => .hostWrite base b :: writeOps (base + 1) rest

/-- The boot sequence of 70_reset_and_hazards.md rule R141: RESET, the font bootstrap, the ROM load (rule R142), and the
initial keypad. A ROM longer than 3584 bytes is refused, since its last writes are above 0xFFF. -/
def bootOps (params : Params) (rom : List Byte) (keys : BitVec 16) : List HostOp :=
  .reset :: (writeOps params.fontStart.toNat params.fontData ++ (writeOps romStart rom ++ [.setKeys keys]))

end Sys2Proof.Machine
end

