-- ==== Sys2Proof/Safety.lean ====
section
/-! DEFINITION. The terms claims use: the invariant of the machine, what an instruction leaves unchanged, the fault the next
iteration raises, which instructions write what, and the word of each encoding pattern written as a number. -/

namespace Sys2Proof.Machine

/-- The invariant of the machine: what every state that a run reaches has. -/
structure State.Inv (s : State) : Prop where
  /-- Memory is in its canonical form, inside 0x000 to 0xFFF. -/
  memory : s.mem.wf = true
  /-- The parameters are in their ranges (00_scope.md rule R10). -/
  parameters : s.params.wf = true
  /-- The stack has its capacity of entries (10_state.md rule R25). -/
  capacity : s.stack.length = s.params.stackDepth
  /-- "invariant: 0 ≤ stackPointer ≤ capacity" (10_state.md rule R25). -/
  pointer : s.sp ≤ s.params.stackDepth
  /-- A stored return address is at most 0x1000, what a CALL at 0xFFE pushes (41_flow.md rule R80). -/
  addresses : ∀ w ∈ s.stack, w.toNat ≤ 0x1000
  /-- "The values PC can hold: 0x0000 to 0x1002" (10_state.md rule R23). -/
  counter : s.pc.toNat ≤ 0x1002
  /-- The cause annotation is `NONE` exactly while RUNNING (10_state.md rule R28). -/
  annotation : s.status = .running ↔ s.cause = .none

/-- The invariant of a session: what every session that starts at power-on has. Before the first RESET nothing is known of the core
but its keypad and its parameters. -/
structure Session.Inv (s : Session) : Prop where
  /-- "KEY is all 0" before the first RESET (70_reset_and_hazards.md rule R140). -/
  keypad : s.phase = .powerOn → s.core.key = 0#16
  /-- The parameters are in their ranges, log 8. -/
  parameters : s.core.params.wf = true
  /-- The core has its invariant from the first RESET on. -/
  core : s.phase ≠ .powerOn → s.core.Inv

/-- A state in which the core still executes (10_state.md rule R27). -/
def State.Safe (s : State) : Prop := s.status = .running

/-- The components of State. -/
inductive Part where
  | mem
  | v
  | regI
  | pc
  | stack
  | sp
  | dt
  | st
  | fb
  | status
  | key
  | cause
  | draws
  | params
  deriving DecidableEq, Repr

/-- Every component not listed in `written` is in `t` as it was in `s`; memory, through the read of each byte. The last three
(`cause`, `draws`, `params`) are the model's own fields, logs 9, 1 and 2. -/
structure Unchanged (written : List Part) (s t : State) : Prop where
  mem : Part.mem ∉ written → ∀ a, t.mem.read a = s.mem.read a
  v : Part.v ∉ written → ∀ z, t.getV z = s.getV z
  regI : Part.regI ∉ written → t.regI = s.regI
  pc : Part.pc ∉ written → t.pc = s.pc
  stack : Part.stack ∉ written → t.stack = s.stack
  sp : Part.sp ∉ written → t.sp = s.sp
  dt : Part.dt ∉ written → t.dt = s.dt
  st : Part.st ∉ written → t.st = s.st
  fb : Part.fb ∉ written → t.fb = s.fb
  status : Part.status ∉ written → t.status = s.status
  key : Part.key ∉ written → t.key = s.key
  cause : Part.cause ∉ written → t.cause = s.cause
  draws : Part.draws ∉ written → t.draws = s.draws
  params : Part.params ∉ written → t.params = s.params

/-- `t` is `s` after ExecutionFault(cause): only STATUS and the cause annotation changed (60_exceptions.md rule R118). -/
def Faulted (cause : Cause) (s t : State) : Prop :=
  t.status = .error ∧ t.cause = cause ∧ Unchanged [.status, .cause] s t

/-- `t` is `s` with the number `value` in V[x], PC advanced by 2, and nothing else changed. -/
def WroteRegister (x : Nibble) (value : Nat) (s t : State) : Prop :=
  (t.getV x).toNat = value ∧ (∀ z, z ≠ x → t.getV z = s.getV z) ∧ t.pc = s.pc + 2#16 ∧ Unchanged [.v, .pc] s t

/-- `t` is `s` with the flag in VF, the number `value` in V[x] unless x = 0xF, PC advanced by 2, and nothing else changed
(42_alu.md rule R87: with x = 0xF "the final VF is the flag and the arithmetic result is lost"). -/
def WroteRegisterAndFlag (x : Nibble) (value : Nat) (flag : Bool) (s t : State) : Prop :=
  (x ≠ 0xF#4 → (t.getV x).toNat = value) ∧ (t.getV 0xF#4).toNat = (if flag then 1 else 0) ∧
  (∀ z, z ≠ x → z ≠ 0xF#4 → t.getV z = s.getV z) ∧ t.pc = s.pc + 2#16 ∧ Unchanged [.v, .pc] s t

/-- `t` is `s` with PC at the skip or the next successor (40_cycle.md rule R73), and nothing else changed. -/
def Skipped (taken : Prop) (s t : State) : Prop :=
  (taken → t.pc = s.pc + 4#16) ∧ (¬ taken → t.pc = s.pc + 2#16) ∧ Unchanged [.pc] s t

/-! ## Encoding patterns as numbers (30_encoding.md rules R56, R57), written without the encoder -/

/-- The word with `op` in w[15:12] and `nnn` in w[11:0]. -/
def wordNNN (op : Nat) (nnn : Addr) : Word := BitVec.ofNat 16 (op * 4096 + nnn.toNat)

/-- The word with `op` in w[15:12], `x` in w[11:8] and `kk` in w[7:0]. -/
def wordXKK (op : Nat) (x : Nibble) (kk : Nat) : Word := BitVec.ofNat 16 (op * 4096 + x.toNat * 256 + kk)

/-- The word with `op` in w[15:12], `x` in w[11:8], `y` in w[7:4] and `n` in w[3:0]. -/
def wordXYN (op : Nat) (x y : Nibble) (n : Nat) : Word :=
  BitVec.ofNat 16 (op * 4096 + x.toNat * 256 + y.toNat * 16 + n)

/-- The word decodes to the instruction, whatever `SYS_MODE` is. -/
def Decodes (w : Word) (i : Instr) : Prop := ∀ m, decode m w = .ok i

/-! ## Faults and writes of the whole machine -/

/-- The fault that the instruction itself raises (60_exceptions.md rule R117, the rows of CALL and RET), `NONE` if none. -/
def stackCause (i : Instr) (s : State) : Cause :=
  match i with
  | .ret => if s.sp = 0 then .stackUnderflow else .none
  | .call _ => if s.sp = s.params.stackDepth then .stackOverflow else .none
  | .sys _ | .cls | .jp _ | .seImm _ _ | .sneImm _ _ | .seReg _ _ | .ldImm _ _ | .addImm _ _ | .ldReg _ _
  | .orReg _ _ | .andReg _ _ | .xorReg _ _ | .addReg _ _ | .sub _ _ | .shr _ _ | .subn _ _ | .shl _ _
  | .sneReg _ _ | .ldI _ | .jpV0 _ | .rnd _ _ | .drw _ _ _ | .skp _ | .sknp _ | .ldVxDT _ | .ldVxK _
  | .ldDTVx _ | .ldSTVx _ | .addIVx _ | .ldFVx _ | .ldBVx _ | .ldMemVx _ | .ldVxMem _ => .none

/-- The fault the next iteration of a RUNNING core raises, by the checks in the order of 60_exceptions.md rule R119. -/
def nextCause (s : State) : Cause :=
  if s.pc.toNat > 0xFFE then .fetchOutOfBounds
  else
    match decode s.params.sysMode
        (BitVec.ofNat 16 ((s.mem.read s.pc.toNat).toNat * 256 + (s.mem.read (s.pc.toNat + 1)).toNat)) with
    | .error _ => .unknownOpcode
    | .ok i => stackCause i s

/-! ## Who writes what, and where PC goes -/

/-- The instructions that write a general register as a destination, and which one (10_state.md rule R21). -/
def writesRegister (i : Instr) (z : Nibble) : Bool :=
  match i with
  | .ldImm x _ | .addImm x _ | .ldReg x _ | .orReg x _ | .andReg x _ | .xorReg x _ | .addReg x _ | .sub x _
  | .shr x _ | .subn x _ | .shl x _ | .rnd x _ | .ldVxDT x | .ldVxK x => z == x
  | .ldVxMem x => decide (z.toNat ≤ x.toNat)
  | .sys _ | .cls | .ret | .jp _ | .call _ | .seImm _ _ | .sneImm _ _ | .seReg _ _ | .sneReg _ _ | .ldI _
  | .jpV0 _ | .drw _ _ _ | .skp _ | .sknp _ | .ldDTVx _ | .ldSTVx _ | .addIVx _ | .ldFVx _ | .ldBVx _
  | .ldMemVx _ => false

/-- The instructions that write VF as a flag (10_state.md rule R22). -/
def writesFlag (p : Params) (i : Instr) : Bool :=
  match i with
  | .addReg _ _ | .sub _ _ | .shr _ _ | .subn _ _ | .shl _ _ | .drw _ _ _ => true
  | .orReg _ _ | .andReg _ _ | .xorReg _ _ => p.logicVfReset
  | .sys _ | .cls | .ret | .jp _ | .call _ | .seImm _ _ | .sneImm _ _ | .seReg _ _ | .ldImm _ _ | .addImm _ _
  | .ldReg _ _ | .sneReg _ _ | .ldI _ | .jpV0 _ | .rnd _ _ | .skp _ | .sknp _ | .ldVxDT _ | .ldVxK _
  | .ldDTVx _ | .ldSTVx _ | .addIVx _ | .ldFVx _ | .ldBVx _ | .ldMemVx _ | .ldVxMem _ => false

/-- The successor of a successful instruction: the table of 40_cycle.md rule R73. -/
def successor (i : Instr) (s : State) : Word :=
  match i with
  | .jp nnn | .call nnn => BitVec.ofNat 16 nnn.toNat
  | .jpV0 nnn => BitVec.ofNat 16 ((nnn.toNat + (s.jumpOffset nnn).toNat) % 4096)
  | .ret => s.stack.getD (s.sp - 1) 0#16
  | .seImm x kk => if s.getV x = kk then s.pc + 4#16 else s.pc + 2#16
  | .sneImm x kk => if s.getV x = kk then s.pc + 2#16 else s.pc + 4#16
  | .seReg x y => if s.getV x = s.getV y then s.pc + 4#16 else s.pc + 2#16
  | .sneReg x y => if s.getV x = s.getV y then s.pc + 2#16 else s.pc + 4#16
  | .skp x => if s.key.getLsbD ((s.getV x).toNat % 16) then s.pc + 4#16 else s.pc + 2#16
  | .sknp x => if s.key.getLsbD ((s.getV x).toNat % 16) then s.pc + 2#16 else s.pc + 4#16
  | .ldVxK _ => if s.key = 0#16 then s.pc else s.pc + 2#16
  | .sys _ | .cls | .ldImm _ _ | .addImm _ _ | .ldReg _ _ | .orReg _ _ | .andReg _ _ | .xorReg _ _
  | .addReg _ _ | .sub _ _ | .shr _ _ | .subn _ _ | .shl _ _ | .ldI _ | .rnd _ _ | .drw _ _ _ | .ldVxDT _
  | .ldDTVx _ | .ldSTVx _ | .addIVx _ | .ldFVx _ | .ldBVx _ | .ldMemVx _ | .ldVxMem _ => s.pc + 2#16

/-- Whether the pixel at column px, row py is under a 1 bit of an n-row sprite drawn at (x0, y0), in closed form: the column and
row of the sprite are recovered from the pixel (44_display.md rule R108). `row` gives the sprite's bytes. -/
def spriteCovers (edge : DrawEdge) (x0 y0 n : Nat) (row : Nat → Byte) (px py : Nat) : Bool :=
  match edge with
  | .wrap =>
    decide ((px + 64 - x0 % 64) % 64 < 8) && decide ((py + 32 - y0 % 32) % 32 < n) &&
      (row ((py + 32 - y0 % 32) % 32)).getLsbD (7 - (px + 64 - x0 % 64) % 64)
  | .clip =>
    decide (x0 % 64 ≤ px) && decide (px - x0 % 64 < 8) && decide (y0 % 32 ≤ py) && decide (py - y0 % 32 < n) &&
      (row (py - y0 % 32)).getLsbD (7 - (px - x0 % 64))

/-- I after a register transfer with last register x, by `QUIRK_MEM_I_INC` (43_index_memory.md rules R105, R106). -/
def IndexMoved (x : Nibble) (s t : State) : Prop :=
  (s.params.memIInc = .none → t.regI = s.regI) ∧
  (s.params.memIInc = .xPlus1 → t.regI.toNat = (s.regI.toNat + x.toNat + 1) % 65536) ∧
  (s.params.memIInc = .x → t.regI.toNat = (s.regI.toNat + x.toNat) % 65536)

/-- Instructions executed one after the other, without fetching them. -/
def execAll : List Instr → State → Host.Outcome State Fault Refusal
  | [], s => .next s
  | i :: rest, s =>
    match exec i s with
    | .next t => execAll rest t
    | .fault r => .fault r
    | .refused r => .refused r

end Sys2Proof.Machine
end

