-- ==== Sys2Proof/Certificates/Slice0/Obligations.lean ====
section
/-! DEFINITION. The statements for the provers. Each docstring names the rule of spec/ it formalises. -/

open Sys2Proof Sys2Proof.Machine

/-! ## Encoding -/

/-- 30_encoding.md R57, R59, R60: decoding the word of a well-formed instruction gives it back, on words and on bytes. -/
def Obligations.DecodeOfEncodeIsTheInstruction : Prop :=
  ∀ (i : Instr) (m : SysMode) (rest : List Byte), i.wf = true → i.admitted m = true →
    decode m (encode i) = .ok i ∧ decodeBytes m (encodeBytes i ++ rest) = .ok (i, rest)

/-- 30_encoding.md R60 ("No word decodes to two instructions"): a legal word is the word of the instruction it decodes to, which is
well-formed and one that the mode has. -/
def Obligations.EncodeOfDecodeIsTheWord : Prop :=
  ∀ (m : SysMode) (w : Word) (i : Instr), decode m w = .ok i → encode i = w ∧ i.wf = true ∧ i.admitted m = true

/-- 30_encoding.md R61: the illegal words are those of the table, with its count of each row, in either `SYS_MODE`, and each faults when
executed. -/
def Obligations.IllegalWordsAreTheTable : Prop :=
  (∀ w : Word, (∃ e, decode .nop w = .error e) ↔
    (w.toNat / 4096 = 5 ∧ w.toNat % 16 ≠ 0) ∨
    (w.toNat / 4096 = 8 ∧ w.toNat % 16 ∈ [8, 9, 10, 11, 12, 13, 15]) ∨
    (w.toNat / 4096 = 9 ∧ w.toNat % 16 ≠ 0) ∨
    (w.toNat / 4096 = 14 ∧ w.toNat % 256 ∉ [0x9E, 0xA1]) ∨
    (w.toNat / 4096 = 15 ∧ w.toNat % 256 ∉ [0x07, 0x0A, 0x15, 0x18, 0x1E, 0x29, 0x33, 0x55, 0x65])) ∧
  (∀ w : Word, (∃ e, decode .fault w = .error e) ↔
    (∃ e, decode .nop w = .error e) ∨ (w.toNat / 4096 = 0 ∧ w.toNat ≠ 0x00E0 ∧ w.toNat ≠ 0x00EE)) ∧
  (∀ op k, (op, k) ∈ [(5, 3840), (8, 1792), (9, 3840), (14, 4064), (15, 3952)] →
    ((List.range 4096).countP fun low => (decode .nop (BitVec.ofNat 16 (op * 4096 + low))).toOption.isNone) = k) ∧
  ((List.range 4096).countP fun low => (decode .fault (BitVec.ofNat 16 low)).toOption.isNone) = 4094 ∧
  3840 + 1792 + 3840 + 4064 + 3952 = 17488 ∧ 2 ^ 16 = 17488 + 48048 ∧
  (∀ (s : State) (e : DecodeError), s.status = .running → s.pc.toNat ≤ 0xFFE →
    decode s.params.sysMode (BitVec.ofNat 16
      ((s.mem.read s.pc.toNat).toNat * 256 + (s.mem.read (s.pc.toNat + 1)).toNat)) = .error e →
    ∃ t, step s = .next t ∧ Faulted .unknownOpcode s t)

/-- 30_encoding.md R59: words written out from the patterns of the map, from each family of 41_flow.md to 45_timer_keypad.md, and an
illegal one. -/
def Obligations.WrittenOutWordsDecode : Prop :=
  decode .nop 0x0123#16 = .ok (.sys 0x123#12) ∧ decode .fault 0x00E0#16 = .ok .cls ∧ decode .nop 0x2ABC#16 = .ok (.call 0xABC#12) ∧
  decode .nop 0x4A10#16 = .ok (.sneImm 0xA#4 0x10#8) ∧ decode .nop 0x812E#16 = .ok (.shl 1#4 2#4) ∧
  decode .nop 0xD12F#16 = .ok (.drw 1#4 2#4 0xF#4) ∧ decode .nop 0xF333#16 = .ok (.ldBVx 3#4) ∧
  decode .nop 0xE5A1#16 = .ok (.sknp 5#4) ∧ decode .nop 0x8008#16 = .error .aluFunction

/-! ## The step and its faults -/

/-- 20_memory.md R40, 40_cycle.md R70, R71, R72: one iteration of a RUNNING core is fetch, decode, execute. -/
def Obligations.StepRunsTheDecodedInstruction : Prop :=
  ∀ (s : State) (w : Word), s.status = .running →
    w.toNat = (s.mem.read s.pc.toNat).toNat * 256 + (s.mem.read (s.pc.toNat + 1)).toNat →
    (s.pc.toNat > 0xFFE → ∃ t, step s = .next t ∧ Faulted .fetchOutOfBounds s t) ∧
    (s.pc.toNat ≤ 0xFFE → ∀ e, decode s.params.sysMode w = .error e →
      ∃ t, step s = .next t ∧ Faulted .unknownOpcode s t) ∧
    (s.pc.toNat ≤ 0xFFE → ∀ i, decode s.params.sysMode w = .ok i → step s = exec i s)

/-- The model's own loading of one word (log 4): the next step runs the instruction the word decodes to, at the placed state. -/
def Obligations.PlacedWordIsWhatTheNextStepRuns : Prop :=
  ∀ (s : State) (w : Nat) (i : Instr), s.mem.wf = true → w < 65536 →
    decode s.params.sysMode (BitVec.ofNat 16 w) = .ok i → step (s.withFetchWord 16 w) = exec i (s.withFetchWord 16 w)

/-- 60_exceptions.md R117: the next iteration of a RUNNING core raises the fault whose condition holds, or none; the causes have the
codes of the table, and they are an annotation of the model, not of the hardware (D31). The checks are in the order of R119, which the
spec derives from R70. -/
def Obligations.FaultsAreThoseOfTheTable : Prop :=
  ([Cause.none, .unknownOpcode, .stackOverflow, .stackUnderflow, .fetchOutOfBounds].map Cause.code = [0, 1, 2, 3, 4]) ∧
  ∀ s : State, s.status = .running → ∃ t, step s = .next t ∧
    (nextCause s = .none → t.status = .running ∧ t.cause = s.cause) ∧
    (nextCause s ≠ .none → Faulted (nextCause s) s t)

/-- 60_exceptions.md R118: a fault sets STATUS and the cause annotation and nothing else, and no later iteration executes. -/
def Obligations.FaultsArePreciseAndTerminal : Prop :=
  ∀ s t : State, s.status = .running → step s = .next t → t.status = .error →
    (∃ cause, cause ≠ .none ∧ Faulted cause s t) ∧ t.mem = s.mem ∧ ∀ n, stepBatch n t = .next t

/-- 40_cycle.md R66: in ERROR a `STEP` of any number of cycles changes nothing; and `STEP(0)` never does, which is R67, derived by the
spec from R65. -/
def Obligations.ErrorStopsExecution : Prop :=
  (∀ (s : State) (n : Nat), s.status = .error → stepBatch n s = .next s) ∧ ∀ s : State, stepBatch 0 s = .next s

/-- 40_cycle.md R65: `STEP(n)` is n iterations one after the other; a batch of m + n is a batch of m and then one of n, and a
batch whose first iterations fault stays where the fault left it. -/
def Obligations.BatchIsIteratedStep : Prop :=
  (∀ (s : State) (n : Nat), stepBatch n s = Sys2Proof.core.run n s) ∧
  (∀ (s t : State) (m n : Nat), stepBatch m s = .next t → stepBatch (m + n) s = stepBatch n t) ∧
  (∀ (s t : State) (m n : Nat), stepBatch m s = .next t → t.status = .error → stepBatch (m + n) s = .next t)

/-- 40_cycle.md R69 ("each ends with a new state or a fault"): no step of any state stops the machine. -/
def Obligations.EveryBatchCompletes : Prop :=
  ∀ (s : State) (n : Nat), ∃ t, stepBatch n s = .next t

/-- 40_cycle.md R73: where PC goes after a successful instruction. In states that no run reaches, what it says of a CALL with SP above
STACK_DEPTH and of a RET whose entry is not stored (the successor is then 0x0000) is the model's choice (log 10), not R73's. -/
def Obligations.SuccessorsAreTheTable : Prop :=
  ∀ (i : Instr) (s : State), s.status = .running → stackCause i s = .none →
    ∃ t, exec i s = .next t ∧ t.status = .running ∧ t.pc = successor i s

/-! ## Invariants of the whole machine -/

/-- 70_reset_and_hazards.md R137: the reset state meets the invariant, and so does the state after RESET of any state whose
parameters are in their ranges (log 8). -/
def Obligations.ResetMeetsTheInvariant : Prop :=
  State.reset.Inv ∧ ∀ s : State, s.params.wf = true → s.resetOp.Inv

/-- 10_state.md R23, R25; 40_cycle.md R74: every step keeps the invariant (memory canonical, SP within capacity, PC at most 0x1002,
stored return addresses at most 0x1000, the cause annotation `NONE` exactly while RUNNING, the parameters in their ranges, log 8). -/
def Obligations.StepKeepsTheInvariant : Prop :=
  ∀ s t : State, s.Inv → step s = .next t → t.Inv

/-- 00_scope.md R8: every host operation keeps the invariant. -/
def Obligations.HostOperationsKeepTheInvariant : Prop :=
  ∀ (s t : Session) (op : HostOp), s.core.Inv → s.apply op = .next t → t.core.Inv

/-- 10_state.md R21, R22: a register that an instruction changes is its destination, or VF by an instruction that writes the flag. -/
def Obligations.OnlyListedInstructionsWriteRegisters : Prop :=
  ∀ (i : Instr) (s t : State) (z : Nibble), exec i s = .next t → t.getV z ≠ s.getV z →
    writesRegister i z = true ∨ (z = 0xF#4 ∧ writesFlag s.params i = true)

/-- 10_state.md R24, R25, R26, R29, R31, R32; 20_memory.md R36: which instruction can change each of the other components. The
clauses on the draw counter and on the parameters are about the model's own fields (log 1, log 2), of which no rule speaks. -/
def Obligations.OnlyListedInstructionsWriteState : Prop :=
  ∀ (i : Instr) (s t : State), exec i s = .next t →
    (t.fb ≠ s.fb → i = .cls ∨ ∃ x y n, i = .drw x y n) ∧
    (t.mem ≠ s.mem → ∃ x, i = .ldBVx x ∨ i = .ldMemVx x) ∧
    (t.stack ≠ s.stack → ∃ nnn, i = .call nnn) ∧
    (t.sp ≠ s.sp → i = .ret ∨ ∃ nnn, i = .call nnn) ∧
    (t.dt ≠ s.dt → ∃ x, i = .ldDTVx x) ∧ (t.st ≠ s.st → ∃ x, i = .ldSTVx x) ∧
    (t.regI ≠ s.regI → (∃ nnn, i = .ldI nnn) ∨ (∃ x, i = .addIVx x ∨ i = .ldFVx x) ∨
      (s.params.memIInc ≠ .none ∧ ∃ x, i = .ldMemVx x ∨ i = .ldVxMem x)) ∧
    (t.status ≠ s.status → i = .ret ∨ ∃ nnn, i = .call nnn) ∧
    (t.draws ≠ s.draws → ∃ x kk, i = .rnd x kk) ∧ t.key = s.key ∧ t.params = s.params

/-- 10_state.md R32, R26: only SKP, SKNP and LD Vx, K read the keypad, and no instruction reads ST; the two
runs that are compared take the same random draw (log 1). -/
def Obligations.KeypadAndSoundTimerAreNotRead : Prop :=
  (∀ (i : Instr) (s t : State) (k : BitVec 16), (∀ x, i ≠ .skp x ∧ i ≠ .sknp x ∧ i ≠ .ldVxK x) →
    exec i s = .next t → exec i (s.setKey k) = .next (t.setKey k)) ∧
  (∀ (i : Instr) (s t : State) (b : Byte), exec i s = .next t →
    ∃ u, exec i (s.setST b) = .next u ∧ u.setST 0#8 = t.setST 0#8)

/-- 10_state.md R25: no instruction reads a stack entry at index SP or above: two states that differ in such entries only
step to states that differ in such entries only, under the same random draw (log 1). -/
def Obligations.DeadStackEntriesAreNotRead : Prop :=
  ∀ (i : Instr) (s t : State) (other : List Word), other.length = s.stack.length →
    (∀ k, k < s.sp → other[k]? = s.stack[k]?) → exec i s = .next t →
    ∃ u, exec i { s with stack := other } = .next u ∧ u = { t with stack := u.stack } ∧
      u.stack.length = t.stack.length ∧ ∀ k, k < t.sp → u.stack[k]? = t.stack[k]?

/-! ## Control flow (41_flow.md) -/

/-- 41_flow.md R77. -/
def Obligations.SysIsANoOp : Prop :=
  ∀ nnn : Addr, nnn ≠ 0x0E0#12 → nnn ≠ 0x0EE#12 →
    decode .nop (wordNNN 0x0 nnn) = .ok (.sys nnn) ∧ (∃ e, decode .fault (wordNNN 0x0 nnn) = .error e) ∧
    ∀ s : State, ∃ t, exec (.sys nnn) s = .next t ∧ t.pc = s.pc + 2#16 ∧ Unchanged [.pc] s t

/-- 41_flow.md R78. -/
def Obligations.RetPopsTheReturnAddress : Prop :=
  Decodes 0x00EE#16 .ret ∧ ∀ s : State,
    (s.sp = 0 → ∃ t, exec .ret s = .next t ∧ Faulted .stackUnderflow s t) ∧
    (∀ w, s.sp ≠ 0 → s.stack[s.sp - 1]? = some w →
      ∃ t, exec .ret s = .next t ∧ t.pc = w ∧ t.sp + 1 = s.sp ∧ Unchanged [.pc, .sp] s t)

/-- 41_flow.md R79. -/
def Obligations.JpJumps : Prop :=
  ∀ nnn : Addr, Decodes (wordNNN 0x1 nnn) (.jp nnn) ∧
    ∀ s : State, ∃ t, exec (.jp nnn) s = .next t ∧ t.pc.toNat = nnn.toNat ∧ Unchanged [.pc] s t

/-- 41_flow.md R80. -/
def Obligations.CallPushesTheReturnAddress : Prop :=
  ∀ nnn : Addr, Decodes (wordNNN 0x2 nnn) (.call nnn) ∧ ∀ s : State,
    (s.sp = s.params.stackDepth → ∃ t, exec (.call nnn) s = .next t ∧ Faulted .stackOverflow s t) ∧
    (s.sp < s.params.stackDepth → s.stack.length = s.params.stackDepth →
      ∃ t, exec (.call nnn) s = .next t ∧ t.pc.toNat = nnn.toNat ∧ t.sp = s.sp + 1 ∧
        t.stack[s.sp]? = some (s.pc + 2#16) ∧ (∀ k, k ≠ s.sp → t.stack[k]? = s.stack[k]?) ∧
        Unchanged [.pc, .sp, .stack] s t)

/-- 41_flow.md R80 ("nesting to depth D then D `RET`s restores PC and SP to their pre-call values"): the calls of a list of targets,
then as many returns. -/
def Obligations.NestedCallsReturn : Prop :=
  ∀ (s : State) (targets : List Addr), s.Inv → targets ≠ [] → s.sp + targets.length ≤ s.params.stackDepth →
    ∃ t, execAll (targets.map Instr.call ++ List.replicate targets.length Instr.ret) s = .next t ∧
      t.pc = s.pc + 2#16 ∧ t.sp = s.sp ∧ (∀ k, k < s.sp → t.stack[k]? = s.stack[k]?) ∧ Unchanged [.pc, .stack] s t

/-- 41_flow.md R81, R82. -/
def Obligations.SkipsCompareWithAByte : Prop :=
  ∀ (x : Nibble) (kk : Byte), Decodes (wordXKK 0x3 x kk.toNat) (.seImm x kk) ∧ Decodes (wordXKK 0x4 x kk.toNat) (.sneImm x kk) ∧
    ∀ s : State, (∃ t, exec (.seImm x kk) s = .next t ∧ Skipped (s.getV x = kk) s t) ∧
      (∃ t, exec (.sneImm x kk) s = .next t ∧ Skipped (s.getV x ≠ kk) s t)

/-- 41_flow.md R83, R84. -/
def Obligations.SkipsCompareRegisters : Prop :=
  ∀ x y : Nibble, Decodes (wordXYN 0x5 x y 0) (.seReg x y) ∧ Decodes (wordXYN 0x9 x y 0) (.sneReg x y) ∧
    ∀ s : State, (∃ t, exec (.seReg x y) s = .next t ∧ Skipped (s.getV x = s.getV y) s t) ∧
      (∃ t, exec (.sneReg x y) s = .next t ∧ Skipped (s.getV x ≠ s.getV y) s t)

/-- 41_flow.md R85, both values of `QUIRK_JUMP_REG`. -/
def Obligations.JpV0JumpsToTheMaskedSum : Prop :=
  ∀ nnn : Addr, Decodes (wordNNN 0xB nnn) (.jpV0 nnn) ∧ ∀ s : State, ∃ t, exec (.jpV0 nnn) s = .next t ∧
    (s.params.jumpReg = .v0 → t.pc.toNat = (nnn.toNat + (s.getV 0#4).toNat) % 4096) ∧
    (s.params.jumpReg = .vx → t.pc.toNat = (nnn.toNat + (s.getV (BitVec.ofNat 4 (nnn.toNat / 256))).toNat) % 4096) ∧
    Unchanged [.pc] s t

/-! ## Registers and ALU (42_alu.md) -/

/-- 42_alu.md R88, R90. -/
def Obligations.LoadsWriteOneRegister : Prop :=
  ∀ x : Nibble,
    (∀ kk : Byte, Decodes (wordXKK 0x6 x kk.toNat) (.ldImm x kk) ∧
      ∀ s : State, ∃ t, exec (.ldImm x kk) s = .next t ∧ WroteRegister x kk.toNat s t) ∧
    (∀ y : Nibble, Decodes (wordXYN 0x8 x y 0) (.ldReg x y) ∧
      ∀ s : State, ∃ t, exec (.ldReg x y) s = .next t ∧ WroteRegister x (s.getV y).toNat s t)

/-- 42_alu.md R89: no carry, VF unchanged unless it is the destination. -/
def Obligations.AddByteWrapsWithoutCarry : Prop :=
  ∀ (x : Nibble) (kk : Byte), Decodes (wordXKK 0x7 x kk.toNat) (.addImm x kk) ∧
    ∀ s : State, ∃ t, exec (.addImm x kk) s = .next t ∧ WroteRegister x (((s.getV x).toNat + kk.toNat) % 256) s t

/-- 42_alu.md R91, R92, R93, both values of `QUIRK_LOGIC_VF_RESET`. -/
def Obligations.LogicOperationsAreBitwise : Prop :=
  ∀ x y : Nibble, Decodes (wordXYN 0x8 x y 1) (.orReg x y) ∧ Decodes (wordXYN 0x8 x y 2) (.andReg x y) ∧
    Decodes (wordXYN 0x8 x y 3) (.xorReg x y) ∧
    ∀ (s : State) (i : Instr) (r : Nat),
      (i, r) ∈ [(.orReg x y, (s.getV x).toNat ||| (s.getV y).toNat), (.andReg x y, (s.getV x).toNat &&& (s.getV y).toNat),
        (.xorReg x y, (s.getV x).toNat ^^^ (s.getV y).toNat)] →
      ∃ t, exec i s = .next t ∧ (s.params.logicVfReset = false → WroteRegister x r s t) ∧
        (s.params.logicVfReset = true → WroteRegisterAndFlag x r false s t)

/-- 42_alu.md R94, R87. -/
def Obligations.AddRegistersSetsTheCarry : Prop :=
  ∀ x y : Nibble, Decodes (wordXYN 0x8 x y 4) (.addReg x y) ∧ ∀ s : State, ∃ t, exec (.addReg x y) s = .next t ∧
    WroteRegisterAndFlag x (((s.getV x).toNat + (s.getV y).toNat) % 256)
      (decide ((s.getV x).toNat + (s.getV y).toNat > 255)) s t

/-- 42_alu.md R95, R97. -/
def Obligations.SubtractionsSetNoBorrow : Prop :=
  ∀ x y : Nibble, Decodes (wordXYN 0x8 x y 5) (.sub x y) ∧ Decodes (wordXYN 0x8 x y 7) (.subn x y) ∧
    ∀ s : State,
      (∃ t, exec (.sub x y) s = .next t ∧
        WroteRegisterAndFlag x ((256 + (s.getV x).toNat - (s.getV y).toNat) % 256)
          (decide ((s.getV x).toNat ≥ (s.getV y).toNat)) s t) ∧
      (∃ t, exec (.subn x y) s = .next t ∧
        WroteRegisterAndFlag x ((256 + (s.getV y).toNat - (s.getV x).toNat) % 256)
          (decide ((s.getV y).toNat ≥ (s.getV x).toNat)) s t)

/-- 42_alu.md R96, R98, both values of `QUIRK_SHIFT_SRC`. -/
def Obligations.ShiftsSetTheBitShiftedOut : Prop :=
  ∀ x y : Nibble, Decodes (wordXYN 0x8 x y 6) (.shr x y) ∧ Decodes (wordXYN 0x8 x y 14) (.shl x y) ∧
    ∀ (s : State) (src : Nat), (s.params.shiftSrc = .vx → src = (s.getV x).toNat) →
      (s.params.shiftSrc = .vy → src = (s.getV y).toNat) →
      (∃ t, exec (.shr x y) s = .next t ∧ WroteRegisterAndFlag x (src / 2) (decide (src % 2 = 1)) s t) ∧
      (∃ t, exec (.shl x y) s = .next t ∧ WroteRegisterAndFlag x (src * 2 % 256) (decide (src ≥ 128)) s t)

/-- 42_alu.md R99 for the mask, the PC and the frame. That the draw is the free value of the state's draw counter, and that the
counter goes up by one, is the model's choice (log 1); the statement holds whatever that value is. -/
def Obligations.RndMasksTheDraw : Prop :=
  ∀ (x : Nibble) (kk : Byte), Decodes (wordXKK 0xC x kk.toNat) (.rnd x kk) ∧
    ∀ s : State, ∃ t, exec (.rnd x kk) s = .next t ∧ t.draws = s.draws + 1 ∧
      (∀ j, (t.getV x).getLsbD j = ((Config.randomByte s.draws).getLsbD j && kk.getLsbD j)) ∧
      (∀ z, z ≠ x → t.getV z = s.getV z) ∧ t.pc = s.pc + 2#16 ∧ Unchanged [.v, .pc, .draws] s t

/-! ## Index register and memory (43_index_memory.md) -/

/-- 43_index_memory.md R101, R102, R103. -/
def Obligations.IndexRegisterIsSet : Prop :=
  (∀ nnn : Addr, Decodes (wordNNN 0xA nnn) (.ldI nnn) ∧ ∀ s : State, ∃ t, exec (.ldI nnn) s = .next t ∧
    t.regI.toNat = nnn.toNat ∧ t.pc = s.pc + 2#16 ∧ Unchanged [.regI, .pc] s t) ∧
  (∀ x : Nibble, Decodes (wordXKK 0xF x 0x1E) (.addIVx x) ∧ ∀ s : State, ∃ t, exec (.addIVx x) s = .next t ∧
    t.regI.toNat = (s.regI.toNat + (s.getV x).toNat) % 65536 ∧ t.pc = s.pc + 2#16 ∧ Unchanged [.regI, .pc] s t) ∧
  (∀ x : Nibble, Decodes (wordXKK 0xF x 0x29) (.ldFVx x) ∧ ∀ s : State, ∃ t, exec (.ldFVx x) s = .next t ∧
    t.regI.toNat = s.params.fontStart.toNat + 5 * ((s.getV x).toNat % 16) ∧ t.pc = s.pc + 2#16 ∧
    Unchanged [.regI, .pc] s t)

/-- 43_index_memory.md R104: the three digits at the masked addresses, every other byte unchanged. -/
def Obligations.BcdStoresThreeDigits : Prop :=
  ∀ x : Nibble, Decodes (wordXKK 0xF x 0x33) (.ldBVx x) ∧ ∀ s : State, s.mem.wf = true →
    ∃ t, exec (.ldBVx x) s = .next t ∧
      (t.mem.read (dataAddr s.regI 0)).toNat = (s.getV x).toNat / 100 ∧
      (t.mem.read (dataAddr s.regI 1)).toNat = (s.getV x).toNat / 10 % 10 ∧
      (t.mem.read (dataAddr s.regI 2)).toNat = (s.getV x).toNat % 10 ∧
      (∀ a, (∀ k, k < 3 → a ≠ dataAddr s.regI k) → t.mem.read a = s.mem.read a) ∧
      t.pc = s.pc + 2#16 ∧ Unchanged [.mem, .pc] s t

/-- 43_index_memory.md R105: V[0] to V[x] at the masked addresses, every other byte unchanged, I by `QUIRK_MEM_I_INC`. -/
def Obligations.StoreRegistersWritesMemory : Prop :=
  ∀ x : Nibble, Decodes (wordXKK 0xF x 0x55) (.ldMemVx x) ∧ ∀ s : State, s.mem.wf = true →
    ∃ t, exec (.ldMemVx x) s = .next t ∧
      (∀ z : Nibble, z.toNat ≤ x.toNat → t.mem.read (dataAddr s.regI z.toNat) = s.getV z) ∧
      (∀ a, (∀ k, k ≤ x.toNat → a ≠ dataAddr s.regI k) → t.mem.read a = s.mem.read a) ∧
      IndexMoved x s t ∧ t.pc = s.pc + 2#16 ∧ Unchanged [.mem, .regI, .pc] s t

/-- 43_index_memory.md R106: V[0] to V[x] from the masked addresses, registers above x unchanged, I by `QUIRK_MEM_I_INC`. -/
def Obligations.LoadRegistersReadsMemory : Prop :=
  ∀ x : Nibble, Decodes (wordXKK 0xF x 0x65) (.ldVxMem x) ∧ ∀ s : State,
    ∃ t, exec (.ldVxMem x) s = .next t ∧
      (∀ z : Nibble, z.toNat ≤ x.toNat → t.getV z = s.mem.read (dataAddr s.regI z.toNat)) ∧
      (∀ z : Nibble, z.toNat > x.toNat → t.getV z = s.getV z) ∧
      IndexMoved x s t ∧ t.pc = s.pc + 2#16 ∧ Unchanged [.v, .regI, .pc] s t

/-- 43_index_memory.md R105, R106 together: what LD [I], Vx stored, LD Vx, [I] loads back from the same I, over any registers. -/
def Obligations.LoadAfterStoreGivesTheRegistersBack : Prop :=
  ∀ (x : Nibble) (s t u : State), s.mem.wf = true → exec (.ldMemVx x) s = .next t → u.mem = t.mem → u.regI = s.regI →
    ∃ w, exec (.ldVxMem x) u = .next w ∧ ∀ z : Nibble, z.toNat ≤ x.toNat → w.getV z = s.getV z

/-- 20_memory.md R52, 70_reset_and_hazards.md R146: the fetch after LD [I], Vx, and the fetch after LD B, Vx, sees the two bytes that
the instruction stored at the new PC and PC + 1. -/
def Obligations.FetchSeesTheStoredBytes : Prop :=
  (∀ (x z : Nibble) (s t : State), s.mem.wf = true → exec (.ldMemVx x) s = .next t → z.toNat + 1 ≤ x.toNat →
    t.pc.toNat ≤ 0xFFE → t.pc.toNat = dataAddr s.regI z.toNat →
    ∃ w, t.fetchWord = some w ∧ w.toNat = (s.getV z).toNat * 256 + (s.getV (z + 1#4)).toNat) ∧
  ∀ (x : Nibble) (s t : State), s.mem.wf = true → exec (.ldBVx x) s = .next t → t.pc.toNat ≤ 0xFFE →
    (t.pc.toNat = dataAddr s.regI 0 → ∃ w, t.fetchWord = some w ∧
      w.toNat = (s.getV x).toNat / 100 * 256 + (s.getV x).toNat / 10 % 10) ∧
    (t.pc.toNat = dataAddr s.regI 1 → ∃ w, t.fetchWord = some w ∧
      w.toNat = (s.getV x).toNat / 10 % 10 * 256 + (s.getV x).toNat % 10)

/-- The model's own canonical form of memory (log 6): two canonical memories that read alike everywhere are the same data. -/
def Obligations.CanonicalMemoriesThatReadAlikeAreEqual : Prop :=
  ∀ m m' : Memory, m.wf = true → m'.wf = true → (∀ a, a < 4096 → m.read a = m'.read a) → m = m'

/-! ## Framebuffer (44_display.md) -/

/-- 44_display.md R107. -/
def Obligations.ClsClearsTheFramebuffer : Prop :=
  Decodes 0x00E0#16 .cls ∧ ∀ s : State, ∃ t, exec .cls s = .next t ∧
    (∀ x y, x < 64 → y < 32 → t.fb.pixel (x + 64 * y) = false) ∧ t.pc = s.pc + 2#16 ∧ Unchanged [.fb, .pc] s t

/-- 44_display.md R108, both values of `QUIRK_DRAW_EDGE`, in closed form: each pixel is the exclusive or of its old value and the
sprite bit over it, and VF is 1 exactly when some pixel went from 1 to 0. -/
def Obligations.DrwIsTheExclusiveOrOfTheSprite : Prop :=
  ∀ x y n : Nibble, Decodes (wordXYN 0xD x y n.toNat) (.drw x y n) ∧ ∀ s : State, ∃ t, exec (.drw x y n) s = .next t ∧
    (∀ px py, px < 64 → py < 32 → t.fb.pixel (px + 64 * py) = (s.fb.pixel (px + 64 * py) ^^
      spriteCovers s.params.drawEdge (s.getV x).toNat (s.getV y).toNat n.toNat
        (fun r => s.mem.read (dataAddr s.regI r)) px py)) ∧
    (t.getV 0xF#4 = 0#8 ∨ t.getV 0xF#4 = 1#8) ∧
    (t.getV 0xF#4 = 1#8 ↔ ∃ px py, px < 64 ∧ py < 32 ∧ s.fb.pixel (px + 64 * py) = true ∧ t.fb.pixel (px + 64 * py) = false) ∧
    (∀ z, z ≠ 0xF#4 → t.getV z = s.getV z) ∧ t.pc = s.pc + 2#16 ∧ Unchanged [.v, .fb, .pc] s t

/-- 44_display.md R108, the corner case of drawing twice, with coordinates not in VF, which the first draw writes, and with
`WRAP`, which drops no bit: FB is as it was, and if the sprite has a 1 bit and the first draw reported no collision, the second
reports one (the spec's sentence leaves the condition on the first draw out, log 7). -/
def Obligations.DrawingTwiceRestoresTheFramebuffer : Prop :=
  ∀ (x y n : Nibble) (s t : State), x ≠ 0xF#4 → y ≠ 0xF#4 → s.params.drawEdge = .wrap → exec (.drw x y n) s = .next t →
    ∃ u, exec (.drw x y n) t = .next u ∧ u.fb = s.fb ∧
      ((∃ r, r < n.toNat ∧ s.mem.read (dataAddr s.regI r) ≠ 0#8) → t.getV 0xF#4 = 0#8 → u.getV 0xF#4 = 1#8)

/-! ## Timers and keypad (45_timer_keypad.md, 60_exceptions.md) -/

/-- 45_timer_keypad.md R109, R110, R111. -/
def Obligations.SkipsTestTheKeyOfTheLowNibble : Prop :=
  ∀ x : Nibble, Decodes (wordXKK 0xE x 0x9E) (.skp x) ∧ Decodes (wordXKK 0xE x 0xA1) (.sknp x) ∧ ∀ s : State,
    (∃ t, exec (.skp x) s = .next t ∧ Skipped (s.key.getLsbD ((s.getV x).toNat % 16) = true) s t) ∧
    (∃ t, exec (.sknp x) s = .next t ∧ Skipped (s.key.getLsbD ((s.getV x).toNat % 16) = false) s t)

/-- 45_timer_keypad.md R112. -/
def Obligations.DelayTimerIsRead : Prop :=
  ∀ x : Nibble, Decodes (wordXKK 0xF x 0x07) (.ldVxDT x) ∧
    ∀ s : State, ∃ t, exec (.ldVxDT x) s = .next t ∧ WroteRegister x s.dt.toNat s t

/-- 45_timer_keypad.md R113: the smallest held key, or a waiting pass that changes nothing. -/
def Obligations.KeyWaitTakesTheLowestKey : Prop :=
  ∀ x : Nibble, Decodes (wordXKK 0xF x 0x0A) (.ldVxK x) ∧ ∀ s : State,
    (∀ k, k < 16 → s.key.getLsbD k = true → (∀ j, j < k → s.key.getLsbD j = false) →
      ∃ t, exec (.ldVxK x) s = .next t ∧ WroteRegister x k s t) ∧
    ((∀ k, k < 16 → s.key.getLsbD k = false) → exec (.ldVxK x) s = .next s)

/-- 45_timer_keypad.md R114, R115. -/
def Obligations.TimersAreSet : Prop :=
  ∀ x : Nibble, Decodes (wordXKK 0xF x 0x15) (.ldDTVx x) ∧ Decodes (wordXKK 0xF x 0x18) (.ldSTVx x) ∧ ∀ s : State,
    (∃ t, exec (.ldDTVx x) s = .next t ∧ t.dt = s.getV x ∧ t.pc = s.pc + 2#16 ∧ Unchanged [.dt, .pc] s t) ∧
    (∃ t, exec (.ldSTVx x) s = .next t ∧ t.st = s.getV x ∧ t.pc = s.pc + 2#16 ∧ Unchanged [.st, .pc] s t)

/-- 60_exceptions.md R125, R126: each timer goes down by one and stops at 0, in either STATUS. -/
def Obligations.TickCountsBothTimersDown : Prop :=
  ∀ s : State, (s.tick).dt.toNat = s.dt.toNat - 1 ∧ (s.tick).st.toNat = s.st.toNat - 1 ∧ Unchanged [.dt, .st] s s.tick

/-- 60_exceptions.md R130: in any session after the first RESET, in either STATUS. -/
def Obligations.SetKeysSetsTheKeypadOnly : Prop :=
  ∀ (s : Session) (k : BitVec 16), s.phase ≠ .powerOn →
    ∃ t, s.apply (.setKeys k) = .next t ∧ t.phase = s.phase ∧
      (∀ i, i < 16 → t.core.keyHeld i = k.getLsbD i) ∧ Unchanged [.key] s.core t.core

/-! ## The host interface (20_memory.md, 70_reset_and_hazards.md) -/

/-- 20_memory.md R47: `HOST_WRITE` sets one byte in the boot phase; it is refused at any other time and
above 0xFFF. -/
def Obligations.HostWriteSetsOneByteDuringBoot : Prop :=
  ∀ (s : Session) (a : Nat) (b : Byte),
    (s.phase = .boot → a ≤ 0xFFF → s.core.mem.wf = true → ∃ t, s.apply (.hostWrite a b) = .next t ∧ t.phase = .boot ∧
      t.core.mem.read a = b ∧ (∀ a', a' ≠ a → t.core.mem.read a' = s.core.mem.read a') ∧
      Unchanged [.mem] s.core t.core) ∧
    (s.phase = .boot → a > 0xFFF → s.apply (.hostWrite a b) = .refused .hostWriteOutOfRange) ∧
    (s.phase = .run → s.apply (.hostWrite a b) = .refused .hostWriteOutsideBoot) ∧
    (s.phase = .powerOn → s.apply (.hostWrite a b) = .refused .beforeReset)

/-- 70_reset_and_hazards.md R137, R138: every component after RESET, from any state, and a second RESET changes nothing; no other
operation takes the core out of ERROR. -/
def Obligations.ResetGivesEveryComponentItsValue : Prop :=
  (∀ (s u : Session) (op : HostOp), s.core.status = .error → op ≠ .reset → s.apply op = .next u → u.core.status = .error) ∧
  ∀ s : Session, ∃ t, s.apply .reset = .next t ∧ t.phase = .boot ∧ t.apply .reset = .next t ∧
    (∀ a, t.core.mem.read a = 0#8) ∧ (∀ z, t.core.getV z = 0#8) ∧ t.core.regI = 0#16 ∧
    t.core.stack.length = s.core.params.stackDepth ∧ (∀ w, w ∈ t.core.stack → w = 0#16) ∧ t.core.sp = 0 ∧
    t.core.dt = 0#8 ∧ t.core.st = 0#8 ∧ (∀ x y, x < 64 → y < 32 → t.core.fb.pixel (x + 64 * y) = false) ∧
    t.core.pc = 0x200#16 ∧ t.core.status = .running ∧ t.core.cause = .none ∧ t.core.key = s.core.key

/-- 70_reset_and_hazards.md R140, 93 U14: before the first RESET no operation but RESET has a meaning. That `SET_KEYS` is among the
refused ones is the model's reading (log 5). -/
def Obligations.OnlyResetBeforeTheFirstReset : Prop :=
  ∀ (s : Session) (op : HostOp), s.phase = .powerOn → op ≠ .reset → s.apply op = .refused .beforeReset

/-- 70_reset_and_hazards.md R142, after the boot sequence of R141: every ROM of at most 3584 bytes, of even length or not, stands at
0x200; a longer ROM is refused. That PC is 0x200 and SP is 0 is R144, which the spec derives. -/
def Obligations.BootLoadsFontAndRom : Prop :=
  ∀ (s : Session) (rom : List Byte) (keys : BitVec 16), s.core.params.wf = true →
    (rom.length ≤ 3584 → ∃ t, Session.perform (bootOps s.core.params rom keys) s = .next t ∧ t.phase = .boot ∧
      t.core.pc = 0x200#16 ∧ t.core.sp = 0 ∧ t.core.status = .running ∧ t.core.key = keys ∧
      (∀ k, k < rom.length → some (t.core.mem.read (0x200 + k)) = rom[k]?) ∧
      (∀ k, k < 80 → some (t.core.mem.read (s.core.params.fontStart.toNat + k)) = s.core.params.fontData[k]?) ∧
      (∀ a, (a < s.core.params.fontStart.toNat ∨ s.core.params.fontStart.toNat + 80 ≤ a) →
        (a < 0x200 ∨ 0x200 + rom.length ≤ a) → t.core.mem.read a = 0#8)) ∧
    (rom.length > 3584 → Session.perform (bootOps s.core.params rom keys) s = .refused .hostWriteOutOfRange)

/-- 40_cycle.md R65, 60_exceptions.md R125, 20_memory.md R47: what `STEP` and `TICK` do in a session after the first RESET. A STEP
gives the core that its iterations give, and no HOST_WRITE is accepted after it; a TICK gives the ticked core and keeps the phase.
That the host's sequence of operations is held as a phase, and that STEP(0) too ends the boot, is the model's reading (log 5). -/
def Obligations.StepAndTickOfASession : Prop :=
  ∀ s : Session, s.phase ≠ .powerOn →
    (∀ n, ∃ t, stepBatch n s.core = .next t ∧ s.apply (.step n) = .next ⟨t, .run⟩ ∧
      ∀ a b, (⟨t, .run⟩ : Session).apply (.hostWrite a b) = .refused .hostWriteOutsideBoot) ∧
    s.apply .tick = .next ⟨s.core.tick, s.phase⟩

/-- 70_reset_and_hazards.md R140, R137: at power-on the keypad is all 0 and every other component is arbitrary; STEP, TICK and
HOST_WRITE are refused; the first RESET gives the reset state, keypad 0 included, whatever the core held. That the draw counter and the
parameters outlive the RESET is the model's (log 1, log 2), and so is the phase (log 5). -/
def Obligations.FirstResetAfterPowerOnGivesTheResetState : Prop :=
  ∀ u : State, (Session.powerOn u).phase = .powerOn ∧ (∀ k, k < 16 → (Session.powerOn u).core.keyHeld k = false) ∧
    Unchanged [.key] u (Session.powerOn u).core ∧
    (∀ n, (Session.powerOn u).apply (.step n) = .refused .beforeReset) ∧
    (Session.powerOn u).apply .tick = .refused .beforeReset ∧
    (∀ a b, (Session.powerOn u).apply (.hostWrite a b) = .refused .beforeReset) ∧
    ∃ t, (Session.powerOn u).apply .reset = .next t ∧ t.phase = .boot ∧ t.core = State.afterReset u.params 0#16 u.draws ∧
      (u.params = Params.standard → u.draws = 0 → t.core = State.reset)

/-- 70_reset_and_hazards.md R140, 00_scope.md R8: a session at power-on meets the session's invariant whatever its core holds, and every
host operation keeps it: the keypad is 0 before the first RESET, and the core has the machine's invariant from then on. The phase is the
model's (log 5), and so are the ranges of the parameters (log 8). -/
def Obligations.HostOperationsKeepTheSessionInvariant : Prop :=
  (∀ u : State, u.params.wf = true → (Session.powerOn u).Inv) ∧
  ∀ (s t : Session) (op : HostOp), s.Inv → s.apply op = .next t → t.Inv
end

