-- ==== Sys2Proof/Laws/Display.lean ====
section
/-! SUPPORT. What the framebuffer operations do, through the read of one pixel. -/

namespace Sys2Proof.Machine

/-- A flip inverts its pixel and no other. -/
theorem Framebuffer.pixel_flip (fb : Framebuffer) (p q : Nat) (hp : p < 2048) :
    (fb.flip p).pixel q = (fb.pixel q ^^ decide (p = q)) := by
  have h32 : p / 64 < 32 := by omega
  unfold Framebuffer.flip Framebuffer.pixel
  simp only [h32, dif_pos]
  by_cases hq : q / 64 < 32
  · simp only [hq, dif_pos, Vector.getElem_set]
    by_cases hr : p / 64 = q / 64
    · simp only [hr, if_true, BitVec.getLsbD_xor, BitVec.getLsbD_twoPow]
      have : p = q ↔ p % 64 = q % 64 := by omega
      simp [this, Nat.mod_lt p (show 64 > 0 by decide)]
    · have hne : p ≠ q := fun h => hr (by rw [h])
      simp [hr, hne]
  · have hne : p ≠ q := by omega
    simp [hq, hne]

/-- After `CLS` every pixel is 0. -/
@[simp] theorem Framebuffer.pixel_clear (q : Nat) : Framebuffer.clear.pixel q = false := by
  simp [Framebuffer.clear, Framebuffer.pixel]

/-- Two framebuffers whose pixels are alike are equal. -/
theorem Framebuffer.ext_pixel (a b : Framebuffer) (h : ∀ p, p < 2048 → a.pixel p = b.pixel p) : a = b := by
  apply Vector.ext
  intro y hy
  apply BitVec.eq_of_getLsbD_eq
  intro x hx
  have := h (x + 64 * y) (by omega)
  simpa [Framebuffer.pixel, show (x + 64 * y) / 64 = y by omega, show (x + 64 * y) % 64 = x by omega, hy] using this

/-- The pixel a sprite bit is drawn at is a pixel of the screen. -/
theorem spritePixel_lt {edge : DrawEdge} {x0 y0 r c p : Nat} (h : spritePixel edge x0 y0 r c = some p) : p < 2048 := by
  unfold spritePixel fbWidth fbHeight at h
  cases edge with
  | wrap =>
    simp only [Option.some.injEq] at h
    omega
  | clip =>
    simp only at h
    split at h
    · simp at h
    · simp only [Option.some.injEq] at h
      omega

theorem spritePixel_wrap (x0 y0 r c : Nat) :
    spritePixel .wrap x0 y0 r c = some ((x0 + c) % 64 + 64 * ((y0 + r) % 32)) := rfl

theorem spritePixel_clip (x0 y0 r c : Nat) :
    spritePixel .clip x0 y0 r c =
      if x0 % 64 + c ≥ 64 ∨ y0 % 32 + r ≥ 32 then none else some (x0 % 64 + c + 64 * (y0 % 32 + r)) := rfl

/-- What one sprite bit does: nothing where it is 0 or dropped, else the flip of one pixel and its old value into `col`. -/
theorem drawBit_cases (edge : DrawEdge) (x0 y0 r : Nat) (row : Byte) (c : Nat) (d : Drawing) :
    (drawBit edge x0 y0 r row c d = d ∧ (row.getLsbD (7 - c) = false ∨ spritePixel edge x0 y0 r c = none)) ∨
    (∃ p, row.getLsbD (7 - c) = true ∧ spritePixel edge x0 y0 r c = some p ∧ p < 2048 ∧
      drawBit edge x0 y0 r row c d = (d.1.flip p, d.2 || d.1.pixel p)) := by
  unfold drawBit
  split
  · rename_i hbit
    split
    · rename_i p hp
      exact .inr ⟨p, hbit, hp, spritePixel_lt hp, rfl⟩
    · rename_i hp
      exact .inl ⟨rfl, .inr hp⟩
  · rename_i hbit
    exact .inl ⟨rfl, .inl (by simpa using hbit)⟩

end Sys2Proof.Machine
end

