-- ==== Sys2Proof/Laws/Encoding.lean ====
section
/-! SUPPORT. The fields of each format (30_encoding.md rules R55, R57), and what the decoder can give. -/

namespace Sys2Proof

theorem fieldOp_toNat (w : Word) : (fieldOp w).toNat = w.toNat / 4096 := by
  simp only [fieldOp, BitVec.extractLsb'_toNat, Nat.shiftRight_eq_div_pow]
  omega

theorem fieldX_toNat (w : Word) : (fieldX w).toNat = w.toNat / 256 % 16 := by
  simp [fieldX, BitVec.extractLsb'_toNat, Nat.shiftRight_eq_div_pow]

theorem fieldY_toNat (w : Word) : (fieldY w).toNat = w.toNat / 16 % 16 := by
  simp [fieldY, BitVec.extractLsb'_toNat, Nat.shiftRight_eq_div_pow]

theorem fieldN_toNat (w : Word) : (fieldN w).toNat = w.toNat % 16 := by simp [fieldN]

theorem fieldKK_toNat (w : Word) : (fieldKK w).toNat = w.toNat % 256 := by simp [fieldKK]

theorem fieldNNN_toNat (w : Word) : (fieldNNN w).toNat = w.toNat % 4096 := by simp [fieldNNN]

/-- The high part times a power of two plus the low part. -/
theorem toNat_append_eq {m n : Nat} (a : BitVec m) (b : BitVec n) : (a ++ b).toNat = a.toNat * 2 ^ n + b.toNat := by
  rw [BitVec.toNat_append, ← Nat.shiftLeft_add_eq_or_of_lt b.isLt, Nat.shiftLeft_eq]

theorem formatNNN_toNat (op : Nibble) (nnn : Addr) : (formatNNN op nnn).toNat = op.toNat * 4096 + nnn.toNat :=
  toNat_append_eq op nnn

theorem formatXKK_toNat (op x : Nibble) (kk : Byte) :
    (formatXKK op x kk).toNat = op.toNat * 4096 + x.toNat * 256 + kk.toNat := by
  have h1 : (formatXKK op x kk).toNat = (op ++ x : Byte).toNat * 2 ^ 8 + kk.toNat := toNat_append_eq (op ++ x : Byte) kk
  have h2 : (op ++ x : Byte).toNat = op.toNat * 2 ^ 4 + x.toNat := toNat_append_eq op x
  rw [h1, h2]
  ring

theorem formatXYN_toNat (op x y n : Nibble) :
    (formatXYN op x y n).toNat = op.toNat * 4096 + x.toNat * 256 + y.toNat * 16 + n.toNat := by
  have h1 : (formatXYN op x y n).toNat = (op ++ x : Byte).toNat * 2 ^ 8 + (y ++ n : Byte).toNat :=
    toNat_append_eq (op ++ x : Byte) (y ++ n : Byte)
  have h2 : (op ++ x : Byte).toNat = op.toNat * 2 ^ 4 + x.toNat := toNat_append_eq op x
  have h3 : (y ++ n : Byte).toNat = y.toNat * 2 ^ 4 + n.toNat := toNat_append_eq y n
  rw [h1, h2, h3]
  ring

theorem wordOfBytes_toNat (hi lo : Byte) : (wordOfBytes hi lo).toNat = hi.toNat * 256 + lo.toNat :=
  toNat_append_eq hi lo

@[simp] theorem fieldOp_formatNNN (op : Nibble) (nnn : Addr) : fieldOp (formatNNN op nnn) = op :=
  BitVec.eq_of_toNat_eq (by rw [fieldOp_toNat, formatNNN_toNat]; omega)

@[simp] theorem fieldNNN_formatNNN (op : Nibble) (nnn : Addr) : fieldNNN (formatNNN op nnn) = nnn :=
  BitVec.eq_of_toNat_eq (by rw [fieldNNN_toNat, formatNNN_toNat]; omega)

@[simp] theorem fieldOp_formatXKK (op x : Nibble) (kk : Byte) : fieldOp (formatXKK op x kk) = op :=
  BitVec.eq_of_toNat_eq (by rw [fieldOp_toNat, formatXKK_toNat]; omega)

@[simp] theorem fieldX_formatXKK (op x : Nibble) (kk : Byte) : fieldX (formatXKK op x kk) = x :=
  BitVec.eq_of_toNat_eq (by rw [fieldX_toNat, formatXKK_toNat]; omega)

@[simp] theorem fieldKK_formatXKK (op x : Nibble) (kk : Byte) : fieldKK (formatXKK op x kk) = kk :=
  BitVec.eq_of_toNat_eq (by rw [fieldKK_toNat, formatXKK_toNat]; omega)

@[simp] theorem fieldOp_formatXYN (op x y n : Nibble) : fieldOp (formatXYN op x y n) = op :=
  BitVec.eq_of_toNat_eq (by rw [fieldOp_toNat, formatXYN_toNat]; omega)

@[simp] theorem fieldX_formatXYN (op x y n : Nibble) : fieldX (formatXYN op x y n) = x :=
  BitVec.eq_of_toNat_eq (by rw [fieldX_toNat, formatXYN_toNat]; omega)

@[simp] theorem fieldY_formatXYN (op x y n : Nibble) : fieldY (formatXYN op x y n) = y :=
  BitVec.eq_of_toNat_eq (by rw [fieldY_toNat, formatXYN_toNat]; omega)

@[simp] theorem fieldN_formatXYN (op x y n : Nibble) : fieldN (formatXYN op x y n) = n :=
  BitVec.eq_of_toNat_eq (by rw [fieldN_toNat, formatXYN_toNat]; omega)

/-- A word is its fields put back together, in each format (30_encoding.md rule R57: each covers all 16 bits exactly once). -/
theorem formatNNN_fields (w : Word) : formatNNN (fieldOp w) (fieldNNN w) = w :=
  BitVec.eq_of_toNat_eq (by rw [formatNNN_toNat, fieldOp_toNat, fieldNNN_toNat]; omega)

theorem formatXKK_fields (w : Word) : formatXKK (fieldOp w) (fieldX w) (fieldKK w) = w :=
  BitVec.eq_of_toNat_eq (by rw [formatXKK_toNat, fieldOp_toNat, fieldX_toNat, fieldKK_toNat]; omega)

theorem formatXYN_fields (w : Word) : formatXYN (fieldOp w) (fieldX w) (fieldY w) (fieldN w) = w :=
  BitVec.eq_of_toNat_eq (by rw [formatXYN_toNat, fieldOp_toNat, fieldX_toNat, fieldY_toNat, fieldN_toNat]; omega)

/-- A word is the two bytes it is stored as (20_memory.md rule R40). -/
@[simp] theorem wordOfBytes_high_low (w : Word) : wordOfBytes (highByte w) (lowByte w) = w := by
  apply BitVec.eq_of_toNat_eq
  rw [wordOfBytes_toNat]
  simp only [highByte, lowByte, BitVec.extractLsb'_toNat, Nat.shiftRight_eq_div_pow]
  omega

end Sys2Proof
end

