-- ==== Sys2Proof/Laws/Memory.lean ====
section
/-! SUPPORT. What the memory operations do: read after write, and that every one keeps the canonical form. -/

namespace Sys2Proof.Machine

theorem dataAddr_lt (base : Word) (k : Nat) : dataAddr base k < memSize := Nat.mod_lt _ (by decide)

/-- Two bytes of one data access lie at different addresses (20_memory.md rule R44: at most 16 bytes). -/
theorem dataAddr_ne (base : Word) (j k : Nat) (hj : j < k) (hk : k < memSize) : dataAddr base j ≠ dataAddr base k := by
  unfold dataAddr memSize at *
  omega

theorem Memory.wfFrom_cons (lo k : Nat) (b : Byte) (m : Memory) :
    Memory.wfFrom lo ((k, b) :: m) = true ↔
      lo ≤ k ∧ k < memSize ∧ b ≠ Memory.unlisted ∧ Memory.wfFrom (k + 1) m = true := by
  simp [Memory.wfFrom, and_assoc]

theorem Memory.wfFrom_mono {lo lo' : Nat} (m : Memory) (h : lo' ≤ lo) (hm : Memory.wfFrom lo m = true) :
    Memory.wfFrom lo' m = true := by
  cases m with
  | nil => rfl
  | cons e rest =>
    obtain ⟨h1, h2⟩ := (Memory.wfFrom_cons ..).mp hm
    exact (Memory.wfFrom_cons ..).mpr ⟨by omega, h2⟩

/-- Below the least address a canonical memory lists, every byte is the unlisted one. -/
theorem Memory.read_below {lo a : Nat} (m : Memory) (hm : Memory.wfFrom lo m = true) (ha : a < lo) :
    Memory.read m a = Memory.unlisted := by
  induction m generalizing lo with
  | nil => rfl
  | cons e rest ih =>
    obtain ⟨h1, h2, h3, h4⟩ := (Memory.wfFrom_cons ..).mp hm
    rw [Memory.read, if_neg (by omega)]
    exact ih h4 (by omega)

/-- Outside 0x000 to 0xFFF a canonical memory lists nothing. -/
theorem Memory.read_outside {lo a : Nat} (m : Memory) (hm : Memory.wfFrom lo m = true) (ha : memSize ≤ a) :
    Memory.read m a = Memory.unlisted := by
  induction m generalizing lo with
  | nil => rfl
  | cons e rest ih =>
    obtain ⟨h1, h2, h3, h4⟩ := (Memory.wfFrom_cons ..).mp hm
    rw [Memory.read, if_neg (by omega)]
    exact ih h4

theorem Memory.write_wfFrom {lo a : Nat} (m : Memory) (b : Byte) (hm : Memory.wfFrom lo m = true) (hlo : lo ≤ a)
    (ha : a < memSize) : Memory.wfFrom lo (Memory.write m a b) = true := by
  induction m generalizing lo with
  | nil =>
    unfold Memory.write
    split
    · rfl
    · rename_i hb
      exact (Memory.wfFrom_cons ..).mpr ⟨hlo, ha, hb, rfl⟩
  | cons e rest ih =>
    obtain ⟨k, c⟩ := e
    obtain ⟨h1, h2, h3, h4⟩ := (Memory.wfFrom_cons ..).mp hm
    unfold Memory.write
    split
    · split
      · exact hm
      · rename_i hlt hb
        exact (Memory.wfFrom_cons ..).mpr ⟨hlo, ha, hb, (Memory.wfFrom_cons ..).mpr ⟨by omega, h2, h3, h4⟩⟩
    · split
      · rename_i heq
        split
        · exact Memory.wfFrom_mono rest (by omega) h4
        · rename_i hb
          exact (Memory.wfFrom_cons ..).mpr ⟨hlo, ha, hb, heq ▸ h4⟩
      · exact (Memory.wfFrom_cons ..).mpr ⟨h1, h2, h3, ih h4 (by omega)⟩

/-- A write inside memory keeps the canonical form. -/
theorem Memory.write_wf {a : Nat} (m : Memory) (b : Byte) (hm : m.wf = true) (ha : a < memSize) :
    (m.write a b).wf = true := Memory.write_wfFrom m b hm (Nat.zero_le a) ha

theorem Memory.read_write_from {lo : Nat} (m : Memory) (a a' : Nat) (b : Byte) (hm : Memory.wfFrom lo m = true) :
    Memory.read (Memory.write m a b) a' = if a' = a then b else Memory.read m a' := by
  induction m generalizing lo with
  | nil =>
    unfold Memory.write
    split
    · rename_i hb
      simp [Memory.read, hb]
    · simp [Memory.read]
  | cons e rest ih =>
    obtain ⟨k, c⟩ := e
    obtain ⟨h1, h2, h3, h4⟩ := (Memory.wfFrom_cons ..).mp hm
    unfold Memory.write
    split
    · split
      · rename_i hlt hb
        split
        · rename_i he
          subst he
          rw [Memory.read, if_neg (by omega), hb]
          exact Memory.read_below rest h4 (by omega)
        · rfl
      · simp only [Memory.read]
    · split
      · rename_i heq
        subst heq
        split
        · rename_i hb
          by_cases he : a' = a
          · simp only [he, if_true, hb]
            exact Memory.read_below rest h4 (by omega)
          · simp [Memory.read, he]
        · by_cases he : a' = a <;> simp [Memory.read, he]
      · rename_i hk
        by_cases he : a' = k
        · simp [Memory.read, he, Ne.symm hk]
        · simp [Memory.read, he, ih h4]

/-- A read after a write: the written byte at its address, every other byte as before (20_memory.md rule R46). -/
theorem Memory.read_write (m : Memory) (a a' : Nat) (b : Byte) (hm : m.wf = true) :
    (m.write a b).read a' = if a' = a then b else m.read a' := Memory.read_write_from m a a' b hm

/-- The bytes of a data access keep the canonical form, wherever I points. -/
theorem storeBytes_wf (base : Word) (k : Nat) (bs : List Byte) (m : Memory) (hm : m.wf = true) :
    (storeBytes base k bs m).wf = true := by
  induction bs generalizing k m with
  | nil => exact hm
  | cons b rest ih => exact ih (k + 1) _ (Memory.write_wf m b hm (dataAddr_lt base k))

/-- Outside the stored bytes every byte reads as before. -/
theorem read_storeBytes_outside (base : Word) (k : Nat) (bs : List Byte) (m : Memory) (a : Nat) (hm : m.wf = true)
    (ha : ∀ j, k ≤ j → j < k + bs.length → a ≠ dataAddr base j) : (storeBytes base k bs m).read a = m.read a := by
  induction bs generalizing k m with
  | nil => rfl
  | cons b rest ih =>
    rw [storeBytes, ih (k + 1) _ (Memory.write_wf m b hm (dataAddr_lt base k))
      (fun j h1 h2 => ha j (by omega) (by simp; omega)), Memory.read_write m _ _ _ hm,
      if_neg (ha k (Nat.le_refl k) (by simp))]

/-- The j-th stored byte is at the j-th address of the access. -/
theorem read_storeBytes_inside (base : Word) (k : Nat) (bs : List Byte) (m : Memory) (j : Nat) (hm : m.wf = true)
    (hj : j < bs.length) (hsize : k + bs.length ≤ memSize) :
    (storeBytes base k bs m).read (dataAddr base (k + j)) = bs[j] := by
  induction bs generalizing k m j with
  | nil => simp at hj
  | cons b rest ih =>
    have hw := Memory.write_wf m b hm (dataAddr_lt base k)
    simp only [List.length_cons] at hj hsize
    rw [storeBytes]
    cases j with
    | zero =>
      have ha := read_storeBytes_outside base (k + 1) rest _ (dataAddr base k) hw
        (fun i h1 h2 => dataAddr_ne base k i (by omega) (by omega))
      simpa [Memory.read_write m _ _ _ hm] using ha
    | succ j =>
      have := ih (k + 1) (m.write (dataAddr base k) b) j hw (by omega) (by omega)
      simpa [show k + (j + 1) = k + 1 + j by omega] using this

@[simp] theorem State.readBytes_length (s : State) (n : Nat) : (s.readBytes n).length = n := by simp [State.readBytes]

@[simp] theorem State.firstRegs_length (s : State) (n : Nat) : (s.firstRegs n).length = n := by simp [State.firstRegs]

@[simp] theorem bcdDigits_length (b : Byte) : (bcdDigits b).length = 3 := rfl

end Sys2Proof.Machine
end

