-- ==== Sys2Proof/Laws/State.lean ====
section
/-! SUPPORT. One lemma for each field and each update of State, and for the read of a register after each update: no later
proof unfolds a record update. -/

namespace Sys2Proof.Machine

/-! ### setMem -/

@[simp] theorem State.setMem_mem (m : Memory) (s : State) : (s.setMem m).mem = m := rfl
@[simp] theorem State.setMem_v (m : Memory) (s : State) : (s.setMem m).v = s.v := rfl
@[simp] theorem State.setMem_regI (m : Memory) (s : State) : (s.setMem m).regI = s.regI := rfl
@[simp] theorem State.setMem_pc (m : Memory) (s : State) : (s.setMem m).pc = s.pc := rfl
@[simp] theorem State.setMem_stack (m : Memory) (s : State) : (s.setMem m).stack = s.stack := rfl
@[simp] theorem State.setMem_sp (m : Memory) (s : State) : (s.setMem m).sp = s.sp := rfl
@[simp] theorem State.setMem_dt (m : Memory) (s : State) : (s.setMem m).dt = s.dt := rfl
@[simp] theorem State.setMem_st (m : Memory) (s : State) : (s.setMem m).st = s.st := rfl
@[simp] theorem State.setMem_fb (m : Memory) (s : State) : (s.setMem m).fb = s.fb := rfl
@[simp] theorem State.setMem_status (m : Memory) (s : State) : (s.setMem m).status = s.status := rfl
@[simp] theorem State.setMem_key (m : Memory) (s : State) : (s.setMem m).key = s.key := rfl
@[simp] theorem State.setMem_cause (m : Memory) (s : State) : (s.setMem m).cause = s.cause := rfl
@[simp] theorem State.setMem_draws (m : Memory) (s : State) : (s.setMem m).draws = s.draws := rfl
@[simp] theorem State.setMem_params (m : Memory) (s : State) : (s.setMem m).params = s.params := rfl
@[simp] theorem State.setMem_getV (m : Memory) (s : State) (z : Nibble) : (s.setMem m).getV z = s.getV z := rfl

/-! ### setV -/

@[simp] theorem State.setV_mem (x : Nibble) (b : Byte) (s : State) : (s.setV x b).mem = s.mem := rfl
@[simp] theorem State.setV_v (x : Nibble) (b : Byte) (s : State) : (s.setV x b).v = s.v.set x.toNat b x.isLt := rfl
@[simp] theorem State.setV_regI (x : Nibble) (b : Byte) (s : State) : (s.setV x b).regI = s.regI := rfl
@[simp] theorem State.setV_pc (x : Nibble) (b : Byte) (s : State) : (s.setV x b).pc = s.pc := rfl
@[simp] theorem State.setV_stack (x : Nibble) (b : Byte) (s : State) : (s.setV x b).stack = s.stack := rfl
@[simp] theorem State.setV_sp (x : Nibble) (b : Byte) (s : State) : (s.setV x b).sp = s.sp := rfl
@[simp] theorem State.setV_dt (x : Nibble) (b : Byte) (s : State) : (s.setV x b).dt = s.dt := rfl
@[simp] theorem State.setV_st (x : Nibble) (b : Byte) (s : State) : (s.setV x b).st = s.st := rfl
@[simp] theorem State.setV_fb (x : Nibble) (b : Byte) (s : State) : (s.setV x b).fb = s.fb := rfl
@[simp] theorem State.setV_status (x : Nibble) (b : Byte) (s : State) : (s.setV x b).status = s.status := rfl
@[simp] theorem State.setV_key (x : Nibble) (b : Byte) (s : State) : (s.setV x b).key = s.key := rfl
@[simp] theorem State.setV_cause (x : Nibble) (b : Byte) (s : State) : (s.setV x b).cause = s.cause := rfl
@[simp] theorem State.setV_draws (x : Nibble) (b : Byte) (s : State) : (s.setV x b).draws = s.draws := rfl
@[simp] theorem State.setV_params (x : Nibble) (b : Byte) (s : State) : (s.setV x b).params = s.params := rfl

/-! ### setI -/

@[simp] theorem State.setI_mem (w : Word) (s : State) : (s.setI w).mem = s.mem := rfl
@[simp] theorem State.setI_v (w : Word) (s : State) : (s.setI w).v = s.v := rfl
@[simp] theorem State.setI_regI (w : Word) (s : State) : (s.setI w).regI = w := rfl
@[simp] theorem State.setI_pc (w : Word) (s : State) : (s.setI w).pc = s.pc := rfl
@[simp] theorem State.setI_stack (w : Word) (s : State) : (s.setI w).stack = s.stack := rfl
@[simp] theorem State.setI_sp (w : Word) (s : State) : (s.setI w).sp = s.sp := rfl
@[simp] theorem State.setI_dt (w : Word) (s : State) : (s.setI w).dt = s.dt := rfl
@[simp] theorem State.setI_st (w : Word) (s : State) : (s.setI w).st = s.st := rfl
@[simp] theorem State.setI_fb (w : Word) (s : State) : (s.setI w).fb = s.fb := rfl
@[simp] theorem State.setI_status (w : Word) (s : State) : (s.setI w).status = s.status := rfl
@[simp] theorem State.setI_key (w : Word) (s : State) : (s.setI w).key = s.key := rfl
@[simp] theorem State.setI_cause (w : Word) (s : State) : (s.setI w).cause = s.cause := rfl
@[simp] theorem State.setI_draws (w : Word) (s : State) : (s.setI w).draws = s.draws := rfl
@[simp] theorem State.setI_params (w : Word) (s : State) : (s.setI w).params = s.params := rfl
@[simp] theorem State.setI_getV (w : Word) (s : State) (z : Nibble) : (s.setI w).getV z = s.getV z := rfl

/-! ### setDT -/

@[simp] theorem State.setDT_mem (b : Byte) (s : State) : (s.setDT b).mem = s.mem := rfl
@[simp] theorem State.setDT_v (b : Byte) (s : State) : (s.setDT b).v = s.v := rfl
@[simp] theorem State.setDT_regI (b : Byte) (s : State) : (s.setDT b).regI = s.regI := rfl
@[simp] theorem State.setDT_pc (b : Byte) (s : State) : (s.setDT b).pc = s.pc := rfl
@[simp] theorem State.setDT_stack (b : Byte) (s : State) : (s.setDT b).stack = s.stack := rfl
@[simp] theorem State.setDT_sp (b : Byte) (s : State) : (s.setDT b).sp = s.sp := rfl
@[simp] theorem State.setDT_dt (b : Byte) (s : State) : (s.setDT b).dt = b := rfl
@[simp] theorem State.setDT_st (b : Byte) (s : State) : (s.setDT b).st = s.st := rfl
@[simp] theorem State.setDT_fb (b : Byte) (s : State) : (s.setDT b).fb = s.fb := rfl
@[simp] theorem State.setDT_status (b : Byte) (s : State) : (s.setDT b).status = s.status := rfl
@[simp] theorem State.setDT_key (b : Byte) (s : State) : (s.setDT b).key = s.key := rfl
@[simp] theorem State.setDT_cause (b : Byte) (s : State) : (s.setDT b).cause = s.cause := rfl
@[simp] theorem State.setDT_draws (b : Byte) (s : State) : (s.setDT b).draws = s.draws := rfl
@[simp] theorem State.setDT_params (b : Byte) (s : State) : (s.setDT b).params = s.params := rfl
@[simp] theorem State.setDT_getV (b : Byte) (s : State) (z : Nibble) : (s.setDT b).getV z = s.getV z := rfl

/-! ### setST -/

@[simp] theorem State.setST_mem (b : Byte) (s : State) : (s.setST b).mem = s.mem := rfl
@[simp] theorem State.setST_v (b : Byte) (s : State) : (s.setST b).v = s.v := rfl
@[simp] theorem State.setST_regI (b : Byte) (s : State) : (s.setST b).regI = s.regI := rfl
@[simp] theorem State.setST_pc (b : Byte) (s : State) : (s.setST b).pc = s.pc := rfl
@[simp] theorem State.setST_stack (b : Byte) (s : State) : (s.setST b).stack = s.stack := rfl
@[simp] theorem State.setST_sp (b : Byte) (s : State) : (s.setST b).sp = s.sp := rfl
@[simp] theorem State.setST_dt (b : Byte) (s : State) : (s.setST b).dt = s.dt := rfl
@[simp] theorem State.setST_st (b : Byte) (s : State) : (s.setST b).st = b := rfl
@[simp] theorem State.setST_fb (b : Byte) (s : State) : (s.setST b).fb = s.fb := rfl
@[simp] theorem State.setST_status (b : Byte) (s : State) : (s.setST b).status = s.status := rfl
@[simp] theorem State.setST_key (b : Byte) (s : State) : (s.setST b).key = s.key := rfl
@[simp] theorem State.setST_cause (b : Byte) (s : State) : (s.setST b).cause = s.cause := rfl
@[simp] theorem State.setST_draws (b : Byte) (s : State) : (s.setST b).draws = s.draws := rfl
@[simp] theorem State.setST_params (b : Byte) (s : State) : (s.setST b).params = s.params := rfl
@[simp] theorem State.setST_getV (b : Byte) (s : State) (z : Nibble) : (s.setST b).getV z = s.getV z := rfl

/-! ### setKey -/

@[simp] theorem State.setKey_mem (k : BitVec 16) (s : State) : (s.setKey k).mem = s.mem := rfl
@[simp] theorem State.setKey_v (k : BitVec 16) (s : State) : (s.setKey k).v = s.v := rfl
@[simp] theorem State.setKey_regI (k : BitVec 16) (s : State) : (s.setKey k).regI = s.regI := rfl
@[simp] theorem State.setKey_pc (k : BitVec 16) (s : State) : (s.setKey k).pc = s.pc := rfl
@[simp] theorem State.setKey_stack (k : BitVec 16) (s : State) : (s.setKey k).stack = s.stack := rfl
@[simp] theorem State.setKey_sp (k : BitVec 16) (s : State) : (s.setKey k).sp = s.sp := rfl
@[simp] theorem State.setKey_dt (k : BitVec 16) (s : State) : (s.setKey k).dt = s.dt := rfl
@[simp] theorem State.setKey_st (k : BitVec 16) (s : State) : (s.setKey k).st = s.st := rfl
@[simp] theorem State.setKey_fb (k : BitVec 16) (s : State) : (s.setKey k).fb = s.fb := rfl
@[simp] theorem State.setKey_status (k : BitVec 16) (s : State) : (s.setKey k).status = s.status := rfl
@[simp] theorem State.setKey_key (k : BitVec 16) (s : State) : (s.setKey k).key = k := rfl
@[simp] theorem State.setKey_cause (k : BitVec 16) (s : State) : (s.setKey k).cause = s.cause := rfl
@[simp] theorem State.setKey_draws (k : BitVec 16) (s : State) : (s.setKey k).draws = s.draws := rfl
@[simp] theorem State.setKey_params (k : BitVec 16) (s : State) : (s.setKey k).params = s.params := rfl
@[simp] theorem State.setKey_getV (k : BitVec 16) (s : State) (z : Nibble) : (s.setKey k).getV z = s.getV z := rfl

/-! ### countDraw -/

@[simp] theorem State.countDraw_mem (s : State) : (s.countDraw).mem = s.mem := rfl
@[simp] theorem State.countDraw_v (s : State) : (s.countDraw).v = s.v := rfl
@[simp] theorem State.countDraw_regI (s : State) : (s.countDraw).regI = s.regI := rfl
@[simp] theorem State.countDraw_pc (s : State) : (s.countDraw).pc = s.pc := rfl
@[simp] theorem State.countDraw_stack (s : State) : (s.countDraw).stack = s.stack := rfl
@[simp] theorem State.countDraw_sp (s : State) : (s.countDraw).sp = s.sp := rfl
@[simp] theorem State.countDraw_dt (s : State) : (s.countDraw).dt = s.dt := rfl
@[simp] theorem State.countDraw_st (s : State) : (s.countDraw).st = s.st := rfl
@[simp] theorem State.countDraw_fb (s : State) : (s.countDraw).fb = s.fb := rfl
@[simp] theorem State.countDraw_status (s : State) : (s.countDraw).status = s.status := rfl
@[simp] theorem State.countDraw_key (s : State) : (s.countDraw).key = s.key := rfl
@[simp] theorem State.countDraw_cause (s : State) : (s.countDraw).cause = s.cause := rfl
@[simp] theorem State.countDraw_draws (s : State) : (s.countDraw).draws = s.draws + 1 := rfl
@[simp] theorem State.countDraw_params (s : State) : (s.countDraw).params = s.params := rfl
@[simp] theorem State.countDraw_getV (s : State) (z : Nibble) : (s.countDraw).getV z = s.getV z := rfl

/-! ### setPC -/

@[simp] theorem State.setPC_mem (w : Word) (s : State) : (s.setPC w).mem = s.mem := rfl
@[simp] theorem State.setPC_v (w : Word) (s : State) : (s.setPC w).v = s.v := rfl
@[simp] theorem State.setPC_regI (w : Word) (s : State) : (s.setPC w).regI = s.regI := rfl
@[simp] theorem State.setPC_pc (w : Word) (s : State) : (s.setPC w).pc = w := rfl
@[simp] theorem State.setPC_stack (w : Word) (s : State) : (s.setPC w).stack = s.stack := rfl
@[simp] theorem State.setPC_sp (w : Word) (s : State) : (s.setPC w).sp = s.sp := rfl
@[simp] theorem State.setPC_dt (w : Word) (s : State) : (s.setPC w).dt = s.dt := rfl
@[simp] theorem State.setPC_st (w : Word) (s : State) : (s.setPC w).st = s.st := rfl
@[simp] theorem State.setPC_fb (w : Word) (s : State) : (s.setPC w).fb = s.fb := rfl
@[simp] theorem State.setPC_status (w : Word) (s : State) : (s.setPC w).status = s.status := rfl
@[simp] theorem State.setPC_key (w : Word) (s : State) : (s.setPC w).key = s.key := rfl
@[simp] theorem State.setPC_cause (w : Word) (s : State) : (s.setPC w).cause = s.cause := rfl
@[simp] theorem State.setPC_draws (w : Word) (s : State) : (s.setPC w).draws = s.draws := rfl
@[simp] theorem State.setPC_params (w : Word) (s : State) : (s.setPC w).params = s.params := rfl
@[simp] theorem State.setPC_getV (w : Word) (s : State) (z : Nibble) : (s.setPC w).getV z = s.getV z := rfl

/-! ### advance -/

@[simp] theorem State.advance_mem (s : State) : (s.advance).mem = s.mem := rfl
@[simp] theorem State.advance_v (s : State) : (s.advance).v = s.v := rfl
@[simp] theorem State.advance_regI (s : State) : (s.advance).regI = s.regI := rfl
@[simp] theorem State.advance_pc (s : State) : (s.advance).pc = s.pc + 2#16 := rfl
@[simp] theorem State.advance_stack (s : State) : (s.advance).stack = s.stack := rfl
@[simp] theorem State.advance_sp (s : State) : (s.advance).sp = s.sp := rfl
@[simp] theorem State.advance_dt (s : State) : (s.advance).dt = s.dt := rfl
@[simp] theorem State.advance_st (s : State) : (s.advance).st = s.st := rfl
@[simp] theorem State.advance_fb (s : State) : (s.advance).fb = s.fb := rfl
@[simp] theorem State.advance_status (s : State) : (s.advance).status = s.status := rfl
@[simp] theorem State.advance_key (s : State) : (s.advance).key = s.key := rfl
@[simp] theorem State.advance_cause (s : State) : (s.advance).cause = s.cause := rfl
@[simp] theorem State.advance_draws (s : State) : (s.advance).draws = s.draws := rfl
@[simp] theorem State.advance_params (s : State) : (s.advance).params = s.params := rfl
@[simp] theorem State.advance_getV (s : State) (z : Nibble) : (s.advance).getV z = s.getV z := rfl

/-! ### push -/

@[simp] theorem State.push_mem (w : Word) (s : State) : (s.push w).mem = s.mem := rfl
@[simp] theorem State.push_v (w : Word) (s : State) : (s.push w).v = s.v := rfl
@[simp] theorem State.push_regI (w : Word) (s : State) : (s.push w).regI = s.regI := rfl
@[simp] theorem State.push_pc (w : Word) (s : State) : (s.push w).pc = s.pc := rfl
@[simp] theorem State.push_stack (w : Word) (s : State) : (s.push w).stack = s.stack.set s.sp w := rfl
@[simp] theorem State.push_sp (w : Word) (s : State) : (s.push w).sp = s.sp + 1 := rfl
@[simp] theorem State.push_dt (w : Word) (s : State) : (s.push w).dt = s.dt := rfl
@[simp] theorem State.push_st (w : Word) (s : State) : (s.push w).st = s.st := rfl
@[simp] theorem State.push_fb (w : Word) (s : State) : (s.push w).fb = s.fb := rfl
@[simp] theorem State.push_status (w : Word) (s : State) : (s.push w).status = s.status := rfl
@[simp] theorem State.push_key (w : Word) (s : State) : (s.push w).key = s.key := rfl
@[simp] theorem State.push_cause (w : Word) (s : State) : (s.push w).cause = s.cause := rfl
@[simp] theorem State.push_draws (w : Word) (s : State) : (s.push w).draws = s.draws := rfl
@[simp] theorem State.push_params (w : Word) (s : State) : (s.push w).params = s.params := rfl
@[simp] theorem State.push_getV (w : Word) (s : State) (z : Nibble) : (s.push w).getV z = s.getV z := rfl

/-! ### pop -/

@[simp] theorem State.pop_mem (s : State) : (s.pop).mem = s.mem := rfl
@[simp] theorem State.pop_v (s : State) : (s.pop).v = s.v := rfl
@[simp] theorem State.pop_regI (s : State) : (s.pop).regI = s.regI := rfl
@[simp] theorem State.pop_pc (s : State) : (s.pop).pc = s.pc := rfl
@[simp] theorem State.pop_stack (s : State) : (s.pop).stack = s.stack := rfl
@[simp] theorem State.pop_sp (s : State) : (s.pop).sp = s.sp - 1 := rfl
@[simp] theorem State.pop_dt (s : State) : (s.pop).dt = s.dt := rfl
@[simp] theorem State.pop_st (s : State) : (s.pop).st = s.st := rfl
@[simp] theorem State.pop_fb (s : State) : (s.pop).fb = s.fb := rfl
@[simp] theorem State.pop_status (s : State) : (s.pop).status = s.status := rfl
@[simp] theorem State.pop_key (s : State) : (s.pop).key = s.key := rfl
@[simp] theorem State.pop_cause (s : State) : (s.pop).cause = s.cause := rfl
@[simp] theorem State.pop_draws (s : State) : (s.pop).draws = s.draws := rfl
@[simp] theorem State.pop_params (s : State) : (s.pop).params = s.params := rfl
@[simp] theorem State.pop_getV (s : State) (z : Nibble) : (s.pop).getV z = s.getV z := rfl

/-! ### setFB -/

@[simp] theorem State.setFB_mem (fb : Framebuffer) (s : State) : (s.setFB fb).mem = s.mem := rfl
@[simp] theorem State.setFB_v (fb : Framebuffer) (s : State) : (s.setFB fb).v = s.v := rfl
@[simp] theorem State.setFB_regI (fb : Framebuffer) (s : State) : (s.setFB fb).regI = s.regI := rfl
@[simp] theorem State.setFB_pc (fb : Framebuffer) (s : State) : (s.setFB fb).pc = s.pc := rfl
@[simp] theorem State.setFB_stack (fb : Framebuffer) (s : State) : (s.setFB fb).stack = s.stack := rfl
@[simp] theorem State.setFB_sp (fb : Framebuffer) (s : State) : (s.setFB fb).sp = s.sp := rfl
@[simp] theorem State.setFB_dt (fb : Framebuffer) (s : State) : (s.setFB fb).dt = s.dt := rfl
@[simp] theorem State.setFB_st (fb : Framebuffer) (s : State) : (s.setFB fb).st = s.st := rfl
@[simp] theorem State.setFB_fb (fb : Framebuffer) (s : State) : (s.setFB fb).fb = fb := rfl
@[simp] theorem State.setFB_status (fb : Framebuffer) (s : State) : (s.setFB fb).status = s.status := rfl
@[simp] theorem State.setFB_key (fb : Framebuffer) (s : State) : (s.setFB fb).key = s.key := rfl
@[simp] theorem State.setFB_cause (fb : Framebuffer) (s : State) : (s.setFB fb).cause = s.cause := rfl
@[simp] theorem State.setFB_draws (fb : Framebuffer) (s : State) : (s.setFB fb).draws = s.draws := rfl
@[simp] theorem State.setFB_params (fb : Framebuffer) (s : State) : (s.setFB fb).params = s.params := rfl
@[simp] theorem State.setFB_getV (fb : Framebuffer) (s : State) (z : Nibble) : (s.setFB fb).getV z = s.getV z := rfl

/-! ### raise -/

@[simp] theorem State.raise_mem (c : Cause) (s : State) : (s.raise c).mem = s.mem := rfl
@[simp] theorem State.raise_v (c : Cause) (s : State) : (s.raise c).v = s.v := rfl
@[simp] theorem State.raise_regI (c : Cause) (s : State) : (s.raise c).regI = s.regI := rfl
@[simp] theorem State.raise_pc (c : Cause) (s : State) : (s.raise c).pc = s.pc := rfl
@[simp] theorem State.raise_stack (c : Cause) (s : State) : (s.raise c).stack = s.stack := rfl
@[simp] theorem State.raise_sp (c : Cause) (s : State) : (s.raise c).sp = s.sp := rfl
@[simp] theorem State.raise_dt (c : Cause) (s : State) : (s.raise c).dt = s.dt := rfl
@[simp] theorem State.raise_st (c : Cause) (s : State) : (s.raise c).st = s.st := rfl
@[simp] theorem State.raise_fb (c : Cause) (s : State) : (s.raise c).fb = s.fb := rfl
@[simp] theorem State.raise_status (c : Cause) (s : State) : (s.raise c).status = .error := rfl
@[simp] theorem State.raise_key (c : Cause) (s : State) : (s.raise c).key = s.key := rfl
@[simp] theorem State.raise_cause (c : Cause) (s : State) : (s.raise c).cause = c := rfl
@[simp] theorem State.raise_draws (c : Cause) (s : State) : (s.raise c).draws = s.draws := rfl
@[simp] theorem State.raise_params (c : Cause) (s : State) : (s.raise c).params = s.params := rfl
@[simp] theorem State.raise_getV (c : Cause) (s : State) (z : Nibble) : (s.raise c).getV z = s.getV z := rfl

/-! ### setFlag -/

@[simp] theorem State.setFlag_mem (c : Bool) (s : State) : (s.setFlag c).mem = s.mem := rfl
@[simp] theorem State.setFlag_regI (c : Bool) (s : State) : (s.setFlag c).regI = s.regI := rfl
@[simp] theorem State.setFlag_pc (c : Bool) (s : State) : (s.setFlag c).pc = s.pc := rfl
@[simp] theorem State.setFlag_stack (c : Bool) (s : State) : (s.setFlag c).stack = s.stack := rfl
@[simp] theorem State.setFlag_sp (c : Bool) (s : State) : (s.setFlag c).sp = s.sp := rfl
@[simp] theorem State.setFlag_dt (c : Bool) (s : State) : (s.setFlag c).dt = s.dt := rfl
@[simp] theorem State.setFlag_st (c : Bool) (s : State) : (s.setFlag c).st = s.st := rfl
@[simp] theorem State.setFlag_fb (c : Bool) (s : State) : (s.setFlag c).fb = s.fb := rfl
@[simp] theorem State.setFlag_status (c : Bool) (s : State) : (s.setFlag c).status = s.status := rfl
@[simp] theorem State.setFlag_key (c : Bool) (s : State) : (s.setFlag c).key = s.key := rfl
@[simp] theorem State.setFlag_cause (c : Bool) (s : State) : (s.setFlag c).cause = s.cause := rfl
@[simp] theorem State.setFlag_draws (c : Bool) (s : State) : (s.setFlag c).draws = s.draws := rfl
@[simp] theorem State.setFlag_params (c : Bool) (s : State) : (s.setFlag c).params = s.params := rfl

/-! ### setResultAndFlag -/

@[simp] theorem State.setResultAndFlag_mem (x : Nibble) (b : Byte) (c : Bool) (s : State) : (s.setResultAndFlag x b c).mem = s.mem := rfl
@[simp] theorem State.setResultAndFlag_regI (x : Nibble) (b : Byte) (c : Bool) (s : State) : (s.setResultAndFlag x b c).regI = s.regI := rfl
@[simp] theorem State.setResultAndFlag_pc (x : Nibble) (b : Byte) (c : Bool) (s : State) : (s.setResultAndFlag x b c).pc = s.pc := rfl
@[simp] theorem State.setResultAndFlag_stack (x : Nibble) (b : Byte) (c : Bool) (s : State) : (s.setResultAndFlag x b c).stack = s.stack := rfl
@[simp] theorem State.setResultAndFlag_sp (x : Nibble) (b : Byte) (c : Bool) (s : State) : (s.setResultAndFlag x b c).sp = s.sp := rfl
@[simp] theorem State.setResultAndFlag_dt (x : Nibble) (b : Byte) (c : Bool) (s : State) : (s.setResultAndFlag x b c).dt = s.dt := rfl
@[simp] theorem State.setResultAndFlag_st (x : Nibble) (b : Byte) (c : Bool) (s : State) : (s.setResultAndFlag x b c).st = s.st := rfl
@[simp] theorem State.setResultAndFlag_fb (x : Nibble) (b : Byte) (c : Bool) (s : State) : (s.setResultAndFlag x b c).fb = s.fb := rfl
@[simp] theorem State.setResultAndFlag_status (x : Nibble) (b : Byte) (c : Bool) (s : State) : (s.setResultAndFlag x b c).status = s.status := rfl
@[simp] theorem State.setResultAndFlag_key (x : Nibble) (b : Byte) (c : Bool) (s : State) : (s.setResultAndFlag x b c).key = s.key := rfl
@[simp] theorem State.setResultAndFlag_cause (x : Nibble) (b : Byte) (c : Bool) (s : State) : (s.setResultAndFlag x b c).cause = s.cause := rfl
@[simp] theorem State.setResultAndFlag_draws (x : Nibble) (b : Byte) (c : Bool) (s : State) : (s.setResultAndFlag x b c).draws = s.draws := rfl
@[simp] theorem State.setResultAndFlag_params (x : Nibble) (b : Byte) (c : Bool) (s : State) : (s.setResultAndFlag x b c).params = s.params := rfl

/-! ### skipWhen: only PC -/

@[simp] theorem State.skipWhen_mem (c : Bool) (s : State) : (s.skipWhen c).mem = s.mem := by cases c <;> rfl
@[simp] theorem State.skipWhen_v (c : Bool) (s : State) : (s.skipWhen c).v = s.v := by cases c <;> rfl
@[simp] theorem State.skipWhen_regI (c : Bool) (s : State) : (s.skipWhen c).regI = s.regI := by cases c <;> rfl
@[simp] theorem State.skipWhen_stack (c : Bool) (s : State) : (s.skipWhen c).stack = s.stack := by cases c <;> rfl
@[simp] theorem State.skipWhen_sp (c : Bool) (s : State) : (s.skipWhen c).sp = s.sp := by cases c <;> rfl
@[simp] theorem State.skipWhen_dt (c : Bool) (s : State) : (s.skipWhen c).dt = s.dt := by cases c <;> rfl
@[simp] theorem State.skipWhen_st (c : Bool) (s : State) : (s.skipWhen c).st = s.st := by cases c <;> rfl
@[simp] theorem State.skipWhen_fb (c : Bool) (s : State) : (s.skipWhen c).fb = s.fb := by cases c <;> rfl
@[simp] theorem State.skipWhen_status (c : Bool) (s : State) : (s.skipWhen c).status = s.status := by cases c <;> rfl
@[simp] theorem State.skipWhen_key (c : Bool) (s : State) : (s.skipWhen c).key = s.key := by cases c <;> rfl
@[simp] theorem State.skipWhen_cause (c : Bool) (s : State) : (s.skipWhen c).cause = s.cause := by cases c <;> rfl
@[simp] theorem State.skipWhen_draws (c : Bool) (s : State) : (s.skipWhen c).draws = s.draws := by cases c <;> rfl
@[simp] theorem State.skipWhen_params (c : Bool) (s : State) : (s.skipWhen c).params = s.params := by cases c <;> rfl
@[simp] theorem State.skipWhen_getV (c : Bool) (s : State) (z : Nibble) : (s.skipWhen c).getV z = s.getV z := by cases c <;> rfl
@[simp] theorem State.skipWhen_pc (c : Bool) (s : State) :
    (s.skipWhen c).pc = if c then s.pc + 4#16 else s.pc + 2#16 := by cases c <;> rfl

/-! ### setLogicResult: only V -/

@[simp] theorem State.setLogicResult_mem (x : Nibble) (b : Byte) (s : State) :
    (s.setLogicResult x b).mem = s.mem := by unfold State.setLogicResult; split <;> rfl
@[simp] theorem State.setLogicResult_regI (x : Nibble) (b : Byte) (s : State) :
    (s.setLogicResult x b).regI = s.regI := by unfold State.setLogicResult; split <;> rfl
@[simp] theorem State.setLogicResult_pc (x : Nibble) (b : Byte) (s : State) :
    (s.setLogicResult x b).pc = s.pc := by unfold State.setLogicResult; split <;> rfl
@[simp] theorem State.setLogicResult_stack (x : Nibble) (b : Byte) (s : State) :
    (s.setLogicResult x b).stack = s.stack := by unfold State.setLogicResult; split <;> rfl
@[simp] theorem State.setLogicResult_sp (x : Nibble) (b : Byte) (s : State) :
    (s.setLogicResult x b).sp = s.sp := by unfold State.setLogicResult; split <;> rfl
@[simp] theorem State.setLogicResult_dt (x : Nibble) (b : Byte) (s : State) :
    (s.setLogicResult x b).dt = s.dt := by unfold State.setLogicResult; split <;> rfl
@[simp] theorem State.setLogicResult_st (x : Nibble) (b : Byte) (s : State) :
    (s.setLogicResult x b).st = s.st := by unfold State.setLogicResult; split <;> rfl
@[simp] theorem State.setLogicResult_fb (x : Nibble) (b : Byte) (s : State) :
    (s.setLogicResult x b).fb = s.fb := by unfold State.setLogicResult; split <;> rfl
@[simp] theorem State.setLogicResult_status (x : Nibble) (b : Byte) (s : State) :
    (s.setLogicResult x b).status = s.status := by unfold State.setLogicResult; split <;> rfl
@[simp] theorem State.setLogicResult_key (x : Nibble) (b : Byte) (s : State) :
    (s.setLogicResult x b).key = s.key := by unfold State.setLogicResult; split <;> rfl
@[simp] theorem State.setLogicResult_cause (x : Nibble) (b : Byte) (s : State) :
    (s.setLogicResult x b).cause = s.cause := by unfold State.setLogicResult; split <;> rfl
@[simp] theorem State.setLogicResult_draws (x : Nibble) (b : Byte) (s : State) :
    (s.setLogicResult x b).draws = s.draws := by unfold State.setLogicResult; split <;> rfl
@[simp] theorem State.setLogicResult_params (x : Nibble) (b : Byte) (s : State) :
    (s.setLogicResult x b).params = s.params := by unfold State.setLogicResult; split <;> rfl

/-! ### loadRegs: only V -/

@[simp] theorem State.loadRegs_mem (k : Nat) (bs : List Byte) (s : State) : (State.loadRegs k bs s).mem = s.mem := by
  induction bs generalizing k s with
  | nil => rfl
  | cons b rest ih => simp [State.loadRegs, ih]
@[simp] theorem State.loadRegs_regI (k : Nat) (bs : List Byte) (s : State) : (State.loadRegs k bs s).regI = s.regI := by
  induction bs generalizing k s with
  | nil => rfl
  | cons b rest ih => simp [State.loadRegs, ih]
@[simp] theorem State.loadRegs_pc (k : Nat) (bs : List Byte) (s : State) : (State.loadRegs k bs s).pc = s.pc := by
  induction bs generalizing k s with
  | nil => rfl
  | cons b rest ih => simp [State.loadRegs, ih]
@[simp] theorem State.loadRegs_stack (k : Nat) (bs : List Byte) (s : State) : (State.loadRegs k bs s).stack = s.stack := by
  induction bs generalizing k s with
  | nil => rfl
  | cons b rest ih => simp [State.loadRegs, ih]
@[simp] theorem State.loadRegs_sp (k : Nat) (bs : List Byte) (s : State) : (State.loadRegs k bs s).sp = s.sp := by
  induction bs generalizing k s with
  | nil => rfl
  | cons b rest ih => simp [State.loadRegs, ih]
@[simp] theorem State.loadRegs_dt (k : Nat) (bs : List Byte) (s : State) : (State.loadRegs k bs s).dt = s.dt := by
  induction bs generalizing k s with
  | nil => rfl
  | cons b rest ih => simp [State.loadRegs, ih]
@[simp] theorem State.loadRegs_st (k : Nat) (bs : List Byte) (s : State) : (State.loadRegs k bs s).st = s.st := by
  induction bs generalizing k s with
  | nil => rfl
  | cons b rest ih => simp [State.loadRegs, ih]
@[simp] theorem State.loadRegs_fb (k : Nat) (bs : List Byte) (s : State) : (State.loadRegs k bs s).fb = s.fb := by
  induction bs generalizing k s with
  | nil => rfl
  | cons b rest ih => simp [State.loadRegs, ih]
@[simp] theorem State.loadRegs_status (k : Nat) (bs : List Byte) (s : State) : (State.loadRegs k bs s).status = s.status := by
  induction bs generalizing k s with
  | nil => rfl
  | cons b rest ih => simp [State.loadRegs, ih]
@[simp] theorem State.loadRegs_key (k : Nat) (bs : List Byte) (s : State) : (State.loadRegs k bs s).key = s.key := by
  induction bs generalizing k s with
  | nil => rfl
  | cons b rest ih => simp [State.loadRegs, ih]
@[simp] theorem State.loadRegs_cause (k : Nat) (bs : List Byte) (s : State) : (State.loadRegs k bs s).cause = s.cause := by
  induction bs generalizing k s with
  | nil => rfl
  | cons b rest ih => simp [State.loadRegs, ih]
@[simp] theorem State.loadRegs_draws (k : Nat) (bs : List Byte) (s : State) : (State.loadRegs k bs s).draws = s.draws := by
  induction bs generalizing k s with
  | nil => rfl
  | cons b rest ih => simp [State.loadRegs, ih]
@[simp] theorem State.loadRegs_params (k : Nat) (bs : List Byte) (s : State) : (State.loadRegs k bs s).params = s.params := by
  induction bs generalizing k s with
  | nil => rfl
  | cons b rest ih => simp [State.loadRegs, ih]

/-! ### Registers -/

/-- A read of V[z] after `V[x] <- b`: no register is hardwired and none is an alias (10_state.md rule R20). -/
theorem State.getV_setV (x z : Nibble) (b : Byte) (s : State) :
    (s.setV x b).getV z = if x = z then b else s.getV z := by
  simp [State.setV, State.getV, Vector.getElem_set, BitVec.toNat_inj]

@[simp] theorem State.getV_setV_self (x : Nibble) (b : Byte) (s : State) : (s.setV x b).getV x = b := by
  simp [State.getV_setV]

theorem State.getV_setV_of_ne (x z : Nibble) (b : Byte) (s : State) (h : z ≠ x) : (s.setV x b).getV z = s.getV z := by
  simp [State.getV_setV, Ne.symm h]

/-- Two register files that read alike are equal. -/
theorem State.v_ext (s t : State) (h : ∀ z, t.getV z = s.getV z) : t.v = s.v := by
  apply Vector.ext
  intro i hi
  have := h (BitVec.ofNat 4 i)
  simp only [State.getV, BitVec.toNat_ofNat, Nat.mod_eq_of_lt (show i < 2 ^ 4 from hi)] at this
  exact this

/-- A read of V[z] after `VF <- bool(c)`. -/
theorem State.getV_setFlag (c : Bool) (z : Nibble) (s : State) :
    (s.setFlag c).getV z = if z = vf then flagByte c else s.getV z := by
  simp [State.setFlag, State.getV_setV, eq_comm]

/-- A read of V[z] after `V[x] <- b; VF <- bool(c)`: the flag is written last (42_alu.md rule R87). -/
theorem State.getV_setResultAndFlag (x z : Nibble) (b : Byte) (c : Bool) (s : State) :
    (s.setResultAndFlag x b c).getV z = if z = vf then flagByte c else if x = z then b else s.getV z := by
  simp [State.setResultAndFlag, State.getV_setFlag, State.getV_setV]

/-- A read of V[z] after the result of a logic operation, by `QUIRK_LOGIC_VF_RESET`. -/
theorem State.getV_setLogicResult (x z : Nibble) (b : Byte) (s : State) :
    (s.setLogicResult x b).getV z =
      if s.params.logicVfReset = true ∧ z = vf then 0x00#8 else if x = z then b else s.getV z := by
  unfold State.setLogicResult
  split <;> rename_i h <;> simp [h, State.getV_setResultAndFlag, State.getV_setV, flagByte]

/-- A read of V[z] after loading the bytes into V[k], V[k+1], and so on: registers outside are unchanged. -/
theorem State.getV_loadRegs (k : Nat) (bs : List Byte) (z : Nibble) (s : State) (h : k + bs.length ≤ 16) :
    (State.loadRegs k bs s).getV z = if k ≤ z.toNat then bs.getD (z.toNat - k) (s.getV z) else s.getV z := by
  induction bs generalizing k s with
  | nil => simp [State.loadRegs]
  | cons b rest ih =>
    have hk : k < 16 := by simp at h; omega
    have hv : (BitVec.ofNat 4 k).toNat = k := by simp; omega
    rw [State.loadRegs, ih (k + 1) _ (by simp at h; omega), State.getV_setV]
    rcases Nat.lt_trichotomy z.toNat k with hz | hz | hz
    · have hne : BitVec.ofNat 4 k ≠ z := fun e => by rw [← e, hv] at hz; omega
      simp [hne, Nat.not_le.mpr hz, show ¬ (k + 1 ≤ z.toNat) by omega]
    · have he : BitVec.ofNat 4 k = z := BitVec.eq_of_toNat_eq (by rw [hv, hz])
      simp [he, hz]
    · have hne : BitVec.ofNat 4 k ≠ z := fun e => by rw [← e, hv] at hz; omega
      obtain ⟨d, hd⟩ : ∃ d, z.toNat = k + 1 + d := ⟨z.toNat - (k + 1), by omega⟩
      simp [hne, hd, show k + 1 + d - k = d + 1 by omega, show k ≤ k + 1 + d by omega]

end Sys2Proof.Machine
end

