-- ==== Sys2Proof/Laws/Step.lean ====
section
/-! SUPPORT. What one step can do, said once, and the fetch of a word placed at PC. -/

namespace Sys2Proof.Machine

/-- The three ways a step gives a next state: nothing in ERROR, a fault before the instruction, or the instruction. -/
theorem step_cases {s t : State} (h : step s = .next t) :
    (s.status = .error ∧ t = s) ∨
    (s.status = .running ∧ ∃ cause, s.fetchInstr = .error cause ∧ t = s.raise cause) ∨
    (s.status = .running ∧ ∃ i, s.fetchInstr = .ok i ∧ exec i s = .next t) := by
  unfold step at h
  cases hs : s.status with
  | error =>
    simp only [hs, Host.Outcome.next.injEq] at h
    exact .inl ⟨rfl, h.symm⟩
  | running =>
    simp only [hs] at h
    cases hf : s.fetchInstr with
    | ok i =>
      simp only [hf] at h
      exact .inr (.inr ⟨rfl, i, rfl, h⟩)
    | error cause =>
      simp only [hf, Host.Outcome.next.injEq] at h
      exact .inr (.inl ⟨rfl, cause, rfl, h.symm⟩)

/-- The two ways the fetch faults, and the one way it gives an instruction (60_exceptions.md rule R119). -/
theorem State.fetchInstr_cases (s : State) :
    (s.pc.toNat > lastFetch ∧ s.fetchInstr = .error .fetchOutOfBounds) ∨
    (s.pc.toNat ≤ lastFetch ∧ ∃ w, w = wordOfBytes (s.mem.read s.pc.toNat) (s.mem.read (s.pc.toNat + 1)) ∧
      ((∃ e, decode s.params.sysMode w = .error e ∧ s.fetchInstr = .error .unknownOpcode) ∨
       (∃ i, decode s.params.sysMode w = .ok i ∧ s.fetchInstr = .ok i))) := by
  unfold State.fetchInstr State.fetchWord
  by_cases h : s.pc.toNat > lastFetch
  · exact .inl ⟨h, by simp [h]⟩
  · refine .inr ⟨by omega, _, rfl, ?_⟩
    simp only [h, if_false]
    cases hd : decode s.params.sysMode (wordOfBytes (s.mem.read s.pc.toNat) (s.mem.read (s.pc.toNat + 1))) with
    | error e => exact .inl ⟨e, rfl, rfl⟩
    | ok i => exact .inr ⟨i, rfl, rfl⟩

@[simp] theorem State.placeWord_params (w : Word) (s : State) : (s.placeWord w).params = s.params := rfl

@[simp] theorem State.placeWord_status (w : Word) (s : State) : (s.placeWord w).status = .running := rfl

/-- The placed word is what the next step fetches. -/
theorem State.fetchWord_placeWord (w : Word) (s : State) (hm : s.mem.wf = true) :
    (s.placeWord w).fetchWord = some w := by
  have hpc : (s.placeWord w).pc.toNat ≤ lastFetch := by
    simp only [State.placeWord]
    split
    · decide
    · omega
  have hmem : (s.placeWord w).mem =
      (s.mem.write (s.placeWord w).pc.toNat (highByte w)).write ((s.placeWord w).pc.toNat + 1) (lowByte w) := rfl
  have hlt : (s.placeWord w).pc.toNat < memSize := by
    unfold lastFetch at hpc
    unfold memSize
    omega
  unfold State.fetchWord
  rw [if_neg (by omega), hmem]
  generalize (s.placeWord w).pc.toNat = a at *
  have hw := Memory.write_wf s.mem (highByte w) hm hlt
  rw [Memory.read_write _ _ _ _ hw, Memory.read_write _ _ _ _ hm, Memory.read_write _ _ _ _ hw]
  simp

end Sys2Proof.Machine
end

