-- ==== Sys2Proof/Laws/Driver.lean ====
section
/-! SUPPORT. What the batch driver, the host's run and the host operations do, one lemma each. -/

namespace Sys2Proof.Machine

@[simp] theorem stepBatch_zero (s : State) : stepBatch 0 s = .next s := rfl

theorem stepBatch_succ_error (n : Nat) (s : State) (h : s.status = .error) : stepBatch (n + 1) s = .next s := by
  simp [stepBatch, h]

theorem stepBatch_succ_running (n : Nat) (s t : State) (h : s.status = .running) (hs : step s = .next t) :
    stepBatch (n + 1) s = stepBatch n t := by
  rw [stepBatch]
  simp only [h, hs]

theorem step_of_error (s : State) (h : s.status = .error) : step s = .next s := by simp [step, h]

@[simp] theorem core_run_zero (s : State) : Sys2Proof.core.run 0 s = .next s := rfl

theorem run_succ_next (M : Host.Core) (n : Nat) (s t : M.State) (h : M.step s = .next t) : M.run (n + 1) s = M.run n t := by
  rw [Host.Core.run, h]

theorem core_run_succ_next (n : Nat) (s t : State) (h : step s = .next t) :
    Sys2Proof.core.run (n + 1) s = Sys2Proof.core.run n t := run_succ_next Sys2Proof.core n s t h

@[simp] theorem sessionOf_next (phase : Phase) (s : State) : sessionOf phase (.next s) = .next ⟨s, phase⟩ := rfl

/-- After the first RESET every operation is the core's own, by the phase. -/
theorem Session.apply_of_reset (s : Session) (op : HostOp) (h : s.phase ≠ .powerOn) : s.apply op = s.applyAfterReset op := by
  obtain ⟨c, p⟩ := s
  cases p with
  | powerOn => exact absurd rfl h
  | boot => rfl
  | run => rfl

@[simp] theorem Session.powerOn_phase (u : State) : (Session.powerOn u).phase = .powerOn := rfl

@[simp] theorem Session.powerOn_core (u : State) : (Session.powerOn u).core = u.setKey 0#16 := rfl

/-- Before the first RESET only RESET is accepted. -/
theorem Session.apply_of_powerOn {s t : Session} {op : HostOp} (hp : s.phase = .powerOn) (h : s.apply op = .next t) :
    op = .reset ∧ t = ⟨s.core.resetOp, .boot⟩ := by
  obtain ⟨c, p⟩ := s
  cases hp
  cases op with
  | reset => cases h; exact ⟨rfl, rfl⟩
  | step n => cases h
  | tick => cases h
  | setKeys k => cases h
  | hostWrite a b => cases h

/-- No operation leads back to power-on. -/
theorem Session.apply_phase {s t : Session} {op : HostOp} (h : s.apply op = .next t) : t.phase ≠ .powerOn := by
  by_cases hp : s.phase = .powerOn
  · obtain ⟨-, rfl⟩ := Session.apply_of_powerOn hp h
    simp
  · rw [Session.apply_of_reset s op hp] at h
    cases op with
    | reset => cases h; simp
    | step n =>
      simp only [Session.applyAfterReset] at h
      cases hb : stepBatch n s.core <;> simp only [hb, sessionOf, Host.Outcome.next.injEq, reduceCtorEq] at h
      subst h; simp
    | tick => cases h; exact hp
    | setKeys k => cases h; exact hp
    | hostWrite a b =>
      simp only [Session.applyAfterReset] at h
      split at h
      · cases hb : Sys2Proof.Machine.hostWrite a b s.core <;> simp only [hb, sessionOf, Host.Outcome.next.injEq, reduceCtorEq] at h
        subst h; simp
      · cases h
      · cases h

/-- RESET is accepted in every phase. -/
theorem Session.apply_reset (s : Session) : s.apply .reset = .next ⟨s.core.resetOp, .boot⟩ := by
  obtain ⟨c, p⟩ := s
  cases p <;> rfl

/-- A host write during boot. -/
theorem Session.apply_hostWrite_boot (c : State) (a : Nat) (b : Byte) (h : a < memSize) :
    (⟨c, .boot⟩ : Session).apply (.hostWrite a b) = .next ⟨c.setMem (c.mem.write a b), .boot⟩ := by
  show sessionOf .boot (Sys2Proof.Machine.hostWrite a b c) = _
  rw [Sys2Proof.Machine.hostWrite, if_pos h]
  rfl

theorem Session.perform_cons_next (s t : Session) (op : HostOp) (rest : List HostOp) (h : s.apply op = .next t) :
    Session.perform (op :: rest) s = Session.perform rest t := by
  rw [Session.perform, h]

/-- A timer's tick as a number: one less, and 0 stays 0. -/
theorem tickTimer_toNat (t : Byte) : (tickTimer t).toNat = t.toNat - 1 := by
  unfold tickTimer
  split
  · rename_i h
    simp [h]
  · rename_i h
    have h0 : t.toNat ≠ 0 := fun e => h (BitVec.eq_of_toNat_eq e)
    have := t.isLt
    simp only [BitVec.toNat_sub, BitVec.toNat_ofNat]
    omega

end Sys2Proof.Machine
end

