-- ==== Sys2Proof/Laws/PerInstr.lean ====
section
/-! SUPPORT. The family TableRow: the word of every instruction has the fixed bits that its row of spec/opcode_table.json gives
as `match` and `mask`. The two numbers of each row are copied from the table, not computed from the encoder. -/

namespace Sys2Proof.Laws

/-- The `mask` and `match` of the instruction's row in spec/opcode_table.json. -/
def TableRow.maskAndMatch : Instr → Word × Word
  | .sys _ => (0xF000#16, 0x0000#16)
  | .cls => (0xFFFF#16, 0x00E0#16)
  | .ret => (0xFFFF#16, 0x00EE#16)
  | .jp _ => (0xF000#16, 0x1000#16)
  | .call _ => (0xF000#16, 0x2000#16)
  | .seImm _ _ => (0xF000#16, 0x3000#16)
  | .sneImm _ _ => (0xF000#16, 0x4000#16)
  | .seReg _ _ => (0xF00F#16, 0x5000#16)
  | .ldImm _ _ => (0xF000#16, 0x6000#16)
  | .addImm _ _ => (0xF000#16, 0x7000#16)
  | .ldReg _ _ => (0xF00F#16, 0x8000#16)
  | .orReg _ _ => (0xF00F#16, 0x8001#16)
  | .andReg _ _ => (0xF00F#16, 0x8002#16)
  | .xorReg _ _ => (0xF00F#16, 0x8003#16)
  | .addReg _ _ => (0xF00F#16, 0x8004#16)
  | .sub _ _ => (0xF00F#16, 0x8005#16)
  | .shr _ _ => (0xF00F#16, 0x8006#16)
  | .subn _ _ => (0xF00F#16, 0x8007#16)
  | .shl _ _ => (0xF00F#16, 0x800E#16)
  | .sneReg _ _ => (0xF00F#16, 0x9000#16)
  | .ldI _ => (0xF000#16, 0xA000#16)
  | .jpV0 _ => (0xF000#16, 0xB000#16)
  | .rnd _ _ => (0xF000#16, 0xC000#16)
  | .drw _ _ _ => (0xF000#16, 0xD000#16)
  | .skp _ => (0xF0FF#16, 0xE09E#16)
  | .sknp _ => (0xF0FF#16, 0xE0A1#16)
  | .ldVxDT _ => (0xF0FF#16, 0xF007#16)
  | .ldVxK _ => (0xF0FF#16, 0xF00A#16)
  | .ldDTVx _ => (0xF0FF#16, 0xF015#16)
  | .ldSTVx _ => (0xF0FF#16, 0xF018#16)
  | .addIVx _ => (0xF0FF#16, 0xF01E#16)
  | .ldFVx _ => (0xF0FF#16, 0xF029#16)
  | .ldBVx _ => (0xF0FF#16, 0xF033#16)
  | .ldMemVx _ => (0xF0FF#16, 0xF055#16)
  | .ldVxMem _ => (0xF0FF#16, 0xF065#16)

/-- The fixed bits of the instruction's row stand in its word. -/
def TableRow.Statement (i : Instr) : Prop :=
  encode i &&& (TableRow.maskAndMatch i).1 = (TableRow.maskAndMatch i).2

theorem TableRow.and_fifteen (op : Nibble) : op &&& 15#4 = op := BitVec.and_allOnes

theorem TableRow.nnn (op : Nibble) (a : Addr) (w : Word) (h : w = op ++ 0x000#12) : formatNNN op a &&& 0xF000#16 = w := by
  subst h
  rw [formatNNN, show (0xF000#16 : Word) = (0xF#4 ++ 0x000#12 : Word) from rfl, BitVec.and_append]
  simp [TableRow.and_fifteen]

theorem TableRow.xkk (op x : Nibble) (kk mask low : Byte) (m w : Word) (hm : m = (0xF0#8 : Byte) ++ mask)
    (hw : w = (op ++ 0x0#4 : Byte) ++ low) (hl : kk &&& mask = low) : formatXKK op x kk &&& m = w := by
  subst hm hw hl
  rw [formatXKK, BitVec.and_append, show (0xF0#8 : Byte) = (0xF#4 ++ 0x0#4 : Byte) from rfl, BitVec.and_append]
  simp [TableRow.and_fifteen]

theorem TableRow.xyn (op x y n mask low : Nibble) (m w : Word) (hm : m = (0xF0#8 : Byte) ++ (0x0#4 ++ mask : Byte))
    (hw : w = (op ++ 0x0#4 : Byte) ++ (0x0#4 ++ low : Byte)) (hl : n &&& mask = low) : formatXYN op x y n &&& m = w := by
  subst hm hw hl
  rw [formatXYN, BitVec.and_append, show (0xF0#8 : Byte) = (0xF#4 ++ 0x0#4 : Byte) from rfl, BitVec.and_append,
    BitVec.and_append]
  simp [TableRow.and_fifteen]

theorem TableRow.sys (nnn : Addr) : TableRow.Statement (.sys nnn) := TableRow.nnn _ _ _ rfl

theorem TableRow.cls : TableRow.Statement (.cls) := rfl

theorem TableRow.ret : TableRow.Statement (.ret) := rfl

theorem TableRow.jp (nnn : Addr) : TableRow.Statement (.jp nnn) := TableRow.nnn _ _ _ rfl

theorem TableRow.call (nnn : Addr) : TableRow.Statement (.call nnn) := TableRow.nnn _ _ _ rfl

theorem TableRow.seImm (x : Nibble) (kk : Byte) : TableRow.Statement (.seImm x kk) := TableRow.xkk _ _ _ 0x00#8 0x00#8 _ _ rfl rfl (by simp)

theorem TableRow.sneImm (x : Nibble) (kk : Byte) : TableRow.Statement (.sneImm x kk) := TableRow.xkk _ _ _ 0x00#8 0x00#8 _ _ rfl rfl (by simp)

theorem TableRow.seReg (x : Nibble) (y : Nibble) : TableRow.Statement (.seReg x y) := TableRow.xyn _ _ _ _ 0xF#4 0x0#4 _ _ rfl rfl rfl

theorem TableRow.ldImm (x : Nibble) (kk : Byte) : TableRow.Statement (.ldImm x kk) := TableRow.xkk _ _ _ 0x00#8 0x00#8 _ _ rfl rfl (by simp)

theorem TableRow.addImm (x : Nibble) (kk : Byte) : TableRow.Statement (.addImm x kk) := TableRow.xkk _ _ _ 0x00#8 0x00#8 _ _ rfl rfl (by simp)

theorem TableRow.ldReg (x : Nibble) (y : Nibble) : TableRow.Statement (.ldReg x y) := TableRow.xyn _ _ _ _ 0xF#4 0x0#4 _ _ rfl rfl rfl

theorem TableRow.orReg (x : Nibble) (y : Nibble) : TableRow.Statement (.orReg x y) := TableRow.xyn _ _ _ _ 0xF#4 0x1#4 _ _ rfl rfl rfl

theorem TableRow.andReg (x : Nibble) (y : Nibble) : TableRow.Statement (.andReg x y) := TableRow.xyn _ _ _ _ 0xF#4 0x2#4 _ _ rfl rfl rfl

theorem TableRow.xorReg (x : Nibble) (y : Nibble) : TableRow.Statement (.xorReg x y) := TableRow.xyn _ _ _ _ 0xF#4 0x3#4 _ _ rfl rfl rfl

theorem TableRow.addReg (x : Nibble) (y : Nibble) : TableRow.Statement (.addReg x y) := TableRow.xyn _ _ _ _ 0xF#4 0x4#4 _ _ rfl rfl rfl

theorem TableRow.sub (x : Nibble) (y : Nibble) : TableRow.Statement (.sub x y) := TableRow.xyn _ _ _ _ 0xF#4 0x5#4 _ _ rfl rfl rfl

theorem TableRow.shr (x : Nibble) (y : Nibble) : TableRow.Statement (.shr x y) := TableRow.xyn _ _ _ _ 0xF#4 0x6#4 _ _ rfl rfl rfl

theorem TableRow.subn (x : Nibble) (y : Nibble) : TableRow.Statement (.subn x y) := TableRow.xyn _ _ _ _ 0xF#4 0x7#4 _ _ rfl rfl rfl

theorem TableRow.shl (x : Nibble) (y : Nibble) : TableRow.Statement (.shl x y) := TableRow.xyn _ _ _ _ 0xF#4 0xE#4 _ _ rfl rfl rfl

theorem TableRow.sneReg (x : Nibble) (y : Nibble) : TableRow.Statement (.sneReg x y) := TableRow.xyn _ _ _ _ 0xF#4 0x0#4 _ _ rfl rfl rfl

theorem TableRow.ldI (nnn : Addr) : TableRow.Statement (.ldI nnn) := TableRow.nnn _ _ _ rfl

theorem TableRow.jpV0 (nnn : Addr) : TableRow.Statement (.jpV0 nnn) := TableRow.nnn _ _ _ rfl

theorem TableRow.rnd (x : Nibble) (kk : Byte) : TableRow.Statement (.rnd x kk) := TableRow.xkk _ _ _ 0x00#8 0x00#8 _ _ rfl rfl (by simp)

theorem TableRow.drw (x : Nibble) (y : Nibble) (n : Nibble) : TableRow.Statement (.drw x y n) := TableRow.xyn _ _ _ _ 0x0#4 0x0#4 _ _ rfl rfl (by simp)

theorem TableRow.skp (x : Nibble) : TableRow.Statement (.skp x) := TableRow.xkk _ _ _ 0xFF#8 0x9E#8 _ _ rfl rfl rfl

theorem TableRow.sknp (x : Nibble) : TableRow.Statement (.sknp x) := TableRow.xkk _ _ _ 0xFF#8 0xA1#8 _ _ rfl rfl rfl

theorem TableRow.ldVxDT (x : Nibble) : TableRow.Statement (.ldVxDT x) := TableRow.xkk _ _ _ 0xFF#8 0x07#8 _ _ rfl rfl rfl

theorem TableRow.ldVxK (x : Nibble) : TableRow.Statement (.ldVxK x) := TableRow.xkk _ _ _ 0xFF#8 0x0A#8 _ _ rfl rfl rfl

theorem TableRow.ldDTVx (x : Nibble) : TableRow.Statement (.ldDTVx x) := TableRow.xkk _ _ _ 0xFF#8 0x15#8 _ _ rfl rfl rfl

theorem TableRow.ldSTVx (x : Nibble) : TableRow.Statement (.ldSTVx x) := TableRow.xkk _ _ _ 0xFF#8 0x18#8 _ _ rfl rfl rfl

theorem TableRow.addIVx (x : Nibble) : TableRow.Statement (.addIVx x) := TableRow.xkk _ _ _ 0xFF#8 0x1E#8 _ _ rfl rfl rfl

theorem TableRow.ldFVx (x : Nibble) : TableRow.Statement (.ldFVx x) := TableRow.xkk _ _ _ 0xFF#8 0x29#8 _ _ rfl rfl rfl

theorem TableRow.ldBVx (x : Nibble) : TableRow.Statement (.ldBVx x) := TableRow.xkk _ _ _ 0xFF#8 0x33#8 _ _ rfl rfl rfl

theorem TableRow.ldMemVx (x : Nibble) : TableRow.Statement (.ldMemVx x) := TableRow.xkk _ _ _ 0xFF#8 0x55#8 _ _ rfl rfl rfl

theorem TableRow.ldVxMem (x : Nibble) : TableRow.Statement (.ldVxMem x) := TableRow.xkk _ _ _ 0xFF#8 0x65#8 _ _ rfl rfl rfl

end Sys2Proof.Laws
end

