-- ==== Sys2Proof/Tests/Slice0.lean ====
section
/-! SUPPORT. The tests: expected values are those of 95_test_vectors.md (the vector is named), of the examples of the instruction
rules, or worked out from the rules by hand; and a witness for each statement that has hypotheses. -/

open Sys2Proof Sys2Proof.Machine

namespace Sys2Proof.Tests

/-! ## Well-formedness: what each check refuses -/

theorem test_wf_refuses_sys_0E0 : (Instr.sys 0x0E0#12).wf = false := by decide
theorem test_wf_refuses_sys_0EE : (Instr.sys 0x0EE#12).wf = false := by decide
theorem test_wf_accepts_sys_neighbours : (Instr.sys 0x0E1#12).wf && (Instr.sys 0x0DF#12).wf && (Instr.sys 0#12).wf := by decide
theorem test_admitted_refuses_sys_in_fault_mode : (Instr.sys 0x123#12).admitted .fault = false := by decide
theorem test_params_refuse_shallow_stack : { Params.standard with stackDepth := 15 }.wf = false := by decide
theorem test_params_refuse_short_font : { Params.standard with fontData := [0xF0#8] }.wf = false := by decide
theorem test_params_refuse_font_over_program : { Params.standard with fontStart := 0x1B1#12 }.wf = false := by decide
theorem test_params_accept_last_font_place : { Params.standard with fontStart := 0x1B0#12 }.wf = true := by decide
theorem test_params_accept_standard : Params.standard.wf = true := by decide

/-! ## Decoding: a word written out from each pattern of 30_encoding.md rule R59, and the encoder back -/

/-- The word decodes to the instruction in either mode, and the instruction encodes to the word. -/
abbrev pairs (w : Word) (i : Instr) : Prop := decode .nop w = .ok i ∧ decode .fault w = .ok i ∧ encode i = w

theorem test_decode_sys : decode .nop 0x0123#16 = .ok (.sys 0x123#12) ∧ encode (.sys 0x123#12) = 0x0123#16 := ⟨rfl, rfl⟩
theorem test_decode_cls : pairs 0x00E0#16 .cls := ⟨rfl, rfl, rfl⟩
theorem test_decode_ret : pairs 0x00EE#16 .ret := ⟨rfl, rfl, rfl⟩
theorem test_decode_jp : pairs 0x1ABC#16 (.jp 0xABC#12) := ⟨rfl, rfl, rfl⟩
theorem test_decode_call : pairs 0x2204#16 (.call 0x204#12) := ⟨rfl, rfl, rfl⟩
theorem test_decode_seImm : pairs 0x3210#16 (.seImm 0x2#4 0x10#8) := ⟨rfl, rfl, rfl⟩
theorem test_decode_sneImm : pairs 0x4211#16 (.sneImm 0x2#4 0x11#8) := ⟨rfl, rfl, rfl⟩
theorem test_decode_seReg : pairs 0x5120#16 (.seReg 0x1#4 0x2#4) := ⟨rfl, rfl, rfl⟩
theorem test_decode_ldImm : pairs 0x6A42#16 (.ldImm 0xA#4 0x42#8) := ⟨rfl, rfl, rfl⟩
theorem test_decode_addImm : pairs 0x73FE#16 (.addImm 0x3#4 0xFE#8) := ⟨rfl, rfl, rfl⟩
theorem test_decode_ldReg : pairs 0x8010#16 (.ldReg 0x0#4 0x1#4) := ⟨rfl, rfl, rfl⟩
theorem test_decode_orReg : pairs 0x8121#16 (.orReg 0x1#4 0x2#4) := ⟨rfl, rfl, rfl⟩
theorem test_decode_andReg : pairs 0x8122#16 (.andReg 0x1#4 0x2#4) := ⟨rfl, rfl, rfl⟩
theorem test_decode_xorReg : pairs 0x8123#16 (.xorReg 0x1#4 0x2#4) := ⟨rfl, rfl, rfl⟩
theorem test_decode_addReg : pairs 0x8F14#16 (.addReg 0xF#4 0x1#4) := ⟨rfl, rfl, rfl⟩
theorem test_decode_sub : pairs 0x8125#16 (.sub 0x1#4 0x2#4) := ⟨rfl, rfl, rfl⟩
theorem test_decode_shr : pairs 0x8566#16 (.shr 0x5#4 0x6#4) := ⟨rfl, rfl, rfl⟩
theorem test_decode_subn : pairs 0x8127#16 (.subn 0x1#4 0x2#4) := ⟨rfl, rfl, rfl⟩
theorem test_decode_shl : pairs 0x850E#16 (.shl 0x5#4 0x0#4) := ⟨rfl, rfl, rfl⟩
theorem test_decode_sneReg : pairs 0x9120#16 (.sneReg 0x1#4 0x2#4) := ⟨rfl, rfl, rfl⟩
theorem test_decode_ldI : pairs 0xA123#16 (.ldI 0x123#12) := ⟨rfl, rfl, rfl⟩
theorem test_decode_jpV0 : pairs 0xB300#16 (.jpV0 0x300#12) := ⟨rfl, rfl, rfl⟩
theorem test_decode_rnd : pairs 0xC30F#16 (.rnd 0x3#4 0x0F#8) := ⟨rfl, rfl, rfl⟩
theorem test_decode_drw : pairs 0xD125#16 (.drw 0x1#4 0x2#4 0x5#4) := ⟨rfl, rfl, rfl⟩
theorem test_decode_skp : pairs 0xE59E#16 (.skp 0x5#4) := ⟨rfl, rfl, rfl⟩
theorem test_decode_sknp : pairs 0xE5A1#16 (.sknp 0x5#4) := ⟨rfl, rfl, rfl⟩
theorem test_decode_ldVxDT : pairs 0xF307#16 (.ldVxDT 0x3#4) := ⟨rfl, rfl, rfl⟩
theorem test_decode_ldVxK : pairs 0xF20A#16 (.ldVxK 0x2#4) := ⟨rfl, rfl, rfl⟩
theorem test_decode_ldDTVx : pairs 0xF115#16 (.ldDTVx 0x1#4) := ⟨rfl, rfl, rfl⟩
theorem test_decode_ldSTVx : pairs 0xF118#16 (.ldSTVx 0x1#4) := ⟨rfl, rfl, rfl⟩
theorem test_decode_addIVx : pairs 0xF21E#16 (.addIVx 0x2#4) := ⟨rfl, rfl, rfl⟩
theorem test_decode_ldFVx : pairs 0xF429#16 (.ldFVx 0x4#4) := ⟨rfl, rfl, rfl⟩
theorem test_decode_ldBVx : pairs 0xF133#16 (.ldBVx 0x1#4) := ⟨rfl, rfl, rfl⟩
theorem test_decode_ldMemVx : pairs 0xF255#16 (.ldMemVx 0x2#4) := ⟨rfl, rfl, rfl⟩
theorem test_decode_ldVxMem : pairs 0xF265#16 (.ldVxMem 0x2#4) := ⟨rfl, rfl, rfl⟩

/-- Illegal words, by name: V-C4, V-C5, V-C6, V-C7, V-C8, and V-C13 in the mode `FAULT`. -/
theorem test_decode_refuses : decode .nop 0x5121#16 = .error .skipEqualNibble ∧ decode .nop 0x8008#16 = .error .aluFunction ∧
    decode .nop 0x9011#16 = .error .skipNotEqualNibble ∧ decode .nop 0xE000#16 = .error .keyFunction ∧
    decode .nop 0xF0FF#16 = .error .miscFunction ∧ decode .fault 0x0123#16 = .error .sysWord := ⟨rfl, rfl, rfl, rfl, rfl, rfl⟩
theorem test_decode_refuses_short_bytes : decodeBytes .nop [0x6A#8] = .error .truncated ∧ decodeBytes .nop [] = .error .truncated :=
  ⟨rfl, rfl⟩
/-- Rule R40: the first byte is the high one. -/
theorem test_decode_bytes : decodeBytes .nop [0x6A#8, 0x42#8, 0xFF#8] = .ok (.ldImm 0xA#4 0x42#8, [0xFF#8]) := rfl
/-- Rule R63: 00FD is SYS, F000 is illegal. -/
theorem test_decode_extensions : decode .nop 0x00FD#16 = .ok (.sys 0x0FD#12) ∧ decode .nop 0xF000#16 = .error .miscFunction :=
  ⟨rfl, rfl⟩
theorem test_decodeTableWord : decodeTableWord 16 0x6A42 = some (.ldImm 0xA#4 0x42#8) ∧ decodeTableWord 16 0x5121 = none :=
  ⟨rfl, rfl⟩
/-- Rules R59, R64: `SHR Vx {, Vy}` is written with its second operand. -/
theorem test_assembly : (Instr.shr 0x5#4 0x6#4).assembly = ("SHR", [.reg 0x5#4, .reg 0x6#4]) ∧
    (Instr.ldMemVx 0x2#4).assembly = ("LD", [.indexed, .reg 0x2#4]) := ⟨rfl, rfl⟩

/-! ## One step: base state B of 95_test_vectors.md, without the font, and the word stored at PC -/

/-- `s` one step after the word is stored at its PC; `s` itself if the step stops. -/
def after (w : Word) (s : State) : State :=
  match step (s.placeWord w) with
  | .next t => t
  | .fault _ => s
  | .refused _ => s

/-- The reset state, which every pre-state below changes. -/
abbrev base : State := State.reset

/-- The reset state with other parameters. -/
abbrev withParams (p : Params) : State := State.afterReset p 0#16 0

/-- PC, STATUS and the cause. -/
abbrev control (s : State) : Word × Status × Cause := (s.pc, s.status, s.cause)

/-- V-C1. -/
theorem test_fetch_at_top : (after 0x1200#16 (base.setPC 0xFFE#16)).pc = 0x200#16 := by decide
/-- V-C2: placeWord would move this PC, so the step is taken directly. -/
theorem test_fetch_beyond_top : (match step (base.setPC 0xFFF#16) with
    | .next t => control t | .fault _ => control base | .refused _ => control base) =
    (0xFFF#16, .error, .fetchOutOfBounds) := by decide
/-- V-C3. -/
theorem test_fetch_odd : (after 0x6133#16 (base.setPC 0x201#16)).pc = 0x203#16 ∧
    (after 0x6133#16 (base.setPC 0x201#16)).getV 1#4 = 0x33#8 := by decide
/-- V-C9. -/
theorem test_illegal_word_faults : control (after 0x800F#16 (base.setV 0#4 0x12#8)) = (0x200#16, .error, .unknownOpcode) ∧
    (after 0x800F#16 (base.setV 0#4 0x12#8)).getV 0#4 = 0x12#8 := by decide

/-- V-C10, V-C12. -/
theorem test_sys : control (after 0x0000#16 base) = (0x202#16, .running, .none) ∧ (after 0x00FD#16 base).pc = 0x202#16 := by decide
/-- V-C13. -/
theorem test_sys_fault_mode : control (after 0x0123#16 (withParams { Params.standard with sysMode := .fault })) =
    (0x200#16, .error, .unknownOpcode) := by decide
/-- V-F1, V-F3: the popped entry stays, and 0x1000 is used as is. -/
theorem test_ret : (after 0x00EE#16 ((base.push 0x202#16).setPC 0x204#16)).pc = 0x202#16 ∧
    (after 0x00EE#16 (base.push 0x202#16)).sp = 0 ∧ (after 0x00EE#16 (base.push 0x202#16)).stack[0]? = some 0x202#16 ∧
    (after 0x00EE#16 (base.push 0x1000#16)).pc = 0x1000#16 := by decide
/-- V-F2. -/
theorem test_ret_underflow : control (after 0x00EE#16 base) = (0x200#16, .error, .stackUnderflow) := by decide
/-- V-F4. -/
theorem test_jp : (after 0x1ABC#16 { base with sp := 3 }).pc = 0xABC#16 ∧ (after 0x1ABC#16 { base with sp := 3 }).sp = 3 := by decide
/-- V-F6, V-F7, V-F9. -/
theorem test_call : ((after 0x2300#16 base).pc, (after 0x2300#16 base).sp, (after 0x2300#16 base).stack[0]?) =
    (0x300#16, 1, some 0x202#16) ∧ (after 0x2400#16 (base.setPC 0xFFE#16)).stack[0]? = some 0x1000#16 ∧
    (after 0x2300#16 { base with sp := 15 }).stack[15]? = some 0x202#16 := by decide
/-- V-F8. -/
theorem test_call_overflow : control (after 0x2300#16 { base with sp := 16 }) = (0x200#16, .error, .stackOverflow) ∧
    (after 0x2300#16 { base with sp := 16 }).sp = 16 := by decide
/-- V-F10, V-F11, V-F20. -/
theorem test_seImm : (after 0x3210#16 (base.setV 2#4 0x10#8)).pc = 0x204#16 ∧ (after 0x3210#16 (base.setV 2#4 0x11#8)).pc = 0x202#16 ∧
    (after 0x3000#16 (base.setPC 0xFFC#16)).pc = 0x1000#16 := by decide
/-- V-F12, V-F13. -/
theorem test_sneImm : (after 0x4211#16 (base.setV 2#4 0x10#8)).pc = 0x204#16 ∧ (after 0x4210#16 (base.setV 2#4 0x10#8)).pc = 0x202#16 := by
  decide
/-- V-F14, V-F15. -/
theorem test_seReg : (after 0x5120#16 ((base.setV 1#4 0x33#8).setV 2#4 0x33#8)).pc = 0x204#16 ∧
    (after 0x5120#16 ((base.setV 1#4 0x33#8).setV 2#4 0x34#8)).pc = 0x202#16 := by decide
/-- V-F16, V-F17. -/
theorem test_sneReg : (after 0x9120#16 ((base.setV 1#4 0x33#8).setV 2#4 0x34#8)).pc = 0x204#16 ∧
    (after 0x9120#16 ((base.setV 1#4 0x33#8).setV 2#4 0x33#8)).pc = 0x202#16 := by decide
/-- V-F23, V-F24. -/
theorem test_jpV0 : (after 0xBFFF#16 (base.setV 0#4 0x01#8)).pc = 0x000#16 ∧ (after 0xBFFF#16 (base.setV 0#4 0xFF#8)).pc = 0x0FE#16 := by
  decide
/-- Rule R85 with `QUIRK_JUMP_REG = VX`: B300 adds V3. -/
theorem test_jpV0_vx : (after 0xB300#16 (((withParams { Params.standard with jumpReg := .vx }).setV 3#4 0x04#8).setV 0#4 0x7F#8)).pc =
    0x304#16 := by decide

/-- V0, V1, V5 and VF of a state. -/
abbrev regs (s : State) : Byte × Byte × Byte × Byte := (s.getV 0#4, s.getV 1#4, s.getV 5#4, s.getV 0xF#4)

/-- V-A1. -/
theorem test_ldImm : (after 0x6A42#16 base).getV 0xA#4 = 0x42#8 ∧ regs (after 0x6A42#16 base) = (0#8, 0#8, 0#8, 0#8) ∧
    (after 0x6A42#16 base).pc = 0x202#16 := by decide
/-- V-A3, V-A4. -/
theorem test_addImm : (after 0x73FF#16 ((base.setV 3#4 0x01#8).setV 0xF#4 0x55#8)).getV 3#4 = 0#8 ∧
    (after 0x73FF#16 ((base.setV 3#4 0x01#8).setV 0xF#4 0x55#8)).getV 0xF#4 = 0x55#8 ∧
    (after 0x7F01#16 (base.setV 0xF#4 0xFF#8)).getV 0xF#4 = 0#8 := by decide
/-- V-A5. -/
theorem test_ldReg : regs (after 0x8010#16 (base.setV 1#4 0x07#8)) = (0x07#8, 0x07#8, 0#8, 0#8) := by decide
/-- The pre-state of V-A6 and V-A7, over the reset state of the parameters. -/
abbrev logicBase (p : Params) : State := (((withParams p).setV 0#4 0x0F#8).setV 1#4 0xF0#8).setV 0xF#4 0x77#8
/-- V-A6, V-A7. -/
theorem test_orReg : regs (after 0x8011#16 (logicBase Params.standard)) = (0xFF#8, 0xF0#8, 0#8, 0x77#8) ∧
    regs (after 0x8011#16 (logicBase { Params.standard with logicVfReset := true })) = (0xFF#8, 0xF0#8, 0#8, 0#8) := by decide
/-- V-A8. -/
theorem test_andReg : regs (after 0x8012#16 ((base.setV 0#4 0x3C#8).setV 1#4 0x0F#8)) = (0x0C#8, 0x0F#8, 0#8, 0#8) := by decide
/-- V-A9, and the example of rule R93. -/
theorem test_xorReg : regs (after 0x8003#16 (base.setV 0#4 0xAB#8)) = (0#8, 0#8, 0#8, 0#8) ∧
    regs (after 0x8013#16 ((base.setV 0#4 0xFF#8).setV 1#4 0x0F#8)) = (0xF0#8, 0x0F#8, 0#8, 0#8) := by decide
/-- V-A10, V-A11. -/
theorem test_addReg : regs (after 0x8014#16 ((base.setV 0#4 0xFF#8).setV 1#4 0x01#8)) = (0#8, 1#8, 0#8, 1#8) ∧
    regs (after 0x8014#16 ((base.setV 0#4 0x80#8).setV 1#4 0x7F#8)) = (0xFF#8, 0x7F#8, 0#8, 0#8) := by decide
/-- V-A12, V-A13. -/
theorem test_addReg_vf : (after 0x8F14#16 ((base.setV 0xF#4 0xFF#8).setV 1#4 0x02#8)).getV 0xF#4 = 1#8 ∧
    regs (after 0x80F4#16 ((base.setV 0#4 0x10#8).setV 0xF#4 0x01#8)) = (0x11#8, 0#8, 0#8, 0#8) := by decide
/-- V-A15, V-A16. -/
theorem test_sub : regs (after 0x8015#16 ((base.setV 0#4 0x10#8).setV 1#4 0x20#8)) = (0xF0#8, 0x20#8, 0#8, 0#8) ∧
    regs (after 0x8015#16 ((base.setV 0#4 0x20#8).setV 1#4 0x20#8)) = (0#8, 0x20#8, 0#8, 1#8) := by decide
/-- V-A19. -/
theorem test_sub_vf : (after 0x8F15#16 ((base.setV 0xF#4 0x05#8).setV 1#4 0x03#8)).getV 0xF#4 = 1#8 := by decide
/-- V-A20, V-A24. -/
theorem test_shr : regs (after 0x8506#16 (base.setV 5#4 0x05#8)) = (0#8, 0#8, 0x02#8, 1#8) ∧
    (after 0x8F06#16 (base.setV 0xF#4 0x03#8)).getV 0xF#4 = 1#8 := by decide
/-- The pre-state of V-A22 and V-A23. -/
abbrev shiftBase (p : Params) : State := ((withParams p).setV 5#4 0x80#8).setV 6#4 0x03#8
/-- V-A22, V-A23. -/
theorem test_shr_source : regs (after 0x8566#16 (shiftBase Params.standard)) = (0#8, 0#8, 0x40#8, 0#8) ∧
    regs (after 0x8566#16 (shiftBase { Params.standard with shiftSrc := .vy })) = (0#8, 0#8, 0x01#8, 1#8) := by decide
/-- V-A25, V-A26. -/
theorem test_subn : regs (after 0x8017#16 ((base.setV 0#4 0x10#8).setV 1#4 0x30#8)) = (0x20#8, 0x30#8, 0#8, 1#8) ∧
    regs (after 0x8017#16 (base.setV 0#4 0x01#8)) = (0xFF#8, 0#8, 0#8, 0#8) := by decide
/-- V-A28, V-A29. -/
theorem test_shl : regs (after 0x850E#16 (base.setV 5#4 0x81#8)) = (0#8, 0#8, 0x02#8, 1#8) ∧
    regs (after 0x850E#16 ((base.setV 5#4 0x40#8).setV 0xF#4 1#8)) = (0#8, 0#8, 0x80#8, 0#8) := by decide
/-- Rule R98 with `QUIRK_SHIFT_SRC = VY`: V6 = 0x03 is the source. -/
theorem test_shl_source : regs (after 0x856E#16 (shiftBase { Params.standard with shiftSrc := .vy })) = (0#8, 0#8, 0x06#8, 0#8) := by
  decide
/-- V-A31, for the draw it names. -/
theorem test_rnd : (base.takeDraw 0xA7#8 3#4 0x0F#8).getV 3#4 = 0x07#8 ∧ (base.takeDraw 0xA7#8 3#4 0x0F#8).pc = 0x202#16 := by decide
/-- V-A32: no bit outside kk, whatever the draw; the next draw is another one. -/
theorem test_rnd_masked : (after 0xC300#16 base).draws = 1 ∧ ∀ r : Byte, (base.takeDraw r 3#4 0x00#8).getV 3#4 = 0#8 := by
  refine ⟨rfl, fun r => ?_⟩
  rw [State.takeDraw]; simp

/-! ### Index register and memory -/

/-- The bytes of a list of addresses. -/
abbrev bytesAt (s : State) (l : List Nat) : List Byte := l.map s.mem.read

/-- `s` with bytes stored from an address on. -/
abbrev poke (a : Nat) (bs : List Byte) (s : State) : State := s.setMem (storeBytes (BitVec.ofNat 16 a) 0 bs s.mem)

/-- V-M1. -/
theorem test_ldI : (after 0xA123#16 (base.setI 0xFFFF#16)).regI = 0x0123#16 := by decide
/-- V-M3, V-M4. -/
theorem test_addIVx : (after 0xF21E#16 ((base.setI 0x0FFF#16).setV 2#4 1#8)).regI = 0x1000#16 ∧
    (after 0xF21E#16 ((base.setI 0xFFFF#16).setV 2#4 1#8)).regI = 0x0000#16 ∧
    (after 0xF21E#16 ((base.setI 0xFFFF#16).setV 2#4 1#8)).getV 0xF#4 = 0#8 := by decide
/-- V-M5, V-M6. -/
theorem test_ldFVx : (after 0xF429#16 (base.setV 4#4 0x0A#8)).regI = 0x0082#16 ∧
    (after 0xF429#16 (base.setV 4#4 0x1B#8)).regI = 0x0087#16 := by decide
/-- V-M8, V-M9: zeros over other bytes. -/
theorem test_ldBVx : bytesAt (after 0xF033#16 ((base.setI 0x300#16).setV 0#4 255#8)) [0x300, 0x301, 0x302] = [2#8, 5#8, 5#8] ∧
    bytesAt (after 0xF033#16 ((poke 0x300 [9, 9, 9] base).setI 0x300#16)) [0x300, 0x301, 0x302] = [0#8, 0#8, 0#8] := by decide
/-- V-M11, V-M12. -/
theorem test_ldBVx_wraps : bytesAt (after 0xF033#16 ((base.setI 0xFFE#16).setV 0#4 123#8)) [0xFFE, 0xFFF, 0] = [1#8, 2#8, 3#8] ∧
    bytesAt (after 0xF033#16 ((base.setI 0x1000#16).setV 0#4 42#8)) [0, 1, 2] = [0#8, 4#8, 2#8] := by decide
/-- The pre-state of V-M13 and V-M16. -/
abbrev storeBase (p : Params) : State :=
  (((((withParams p).setI 0x400#16).setV 0#4 0x11#8).setV 1#4 0x22#8).setV 2#4 0x33#8).setV 3#4 0x44#8
/-- V-M13, V-M16, and rule R105 with `X`. -/
theorem test_ldMemVx : bytesAt (after 0xF255#16 (storeBase Params.standard)) [0x400, 0x401, 0x402, 0x403] = [0x11#8, 0x22#8, 0x33#8, 0#8] ∧
    (after 0xF255#16 (storeBase Params.standard)).regI = 0x400#16 ∧
    (after 0xF255#16 (storeBase { Params.standard with memIInc := .xPlus1 })).regI = 0x403#16 ∧
    (after 0xF255#16 (storeBase { Params.standard with memIInc := .x })).regI = 0x402#16 := by decide
/-- V-M15. -/
theorem test_ldMemVx_wraps : bytesAt (after 0xF155#16 (((base.setI 0xFFF#16).setV 0#4 0xAA#8).setV 1#4 0xBB#8)) [0xFFF, 0] =
    [0xAA#8, 0xBB#8] := by decide
/-- V-M17. -/
theorem test_ldVxMem : let t := after 0xF265#16 (((poke 0x400 [0x11, 0x22, 0x33, 0x44] base).setI 0x400#16).setV 3#4 0x99#8)
    (t.getV 0#4, t.getV 1#4, t.getV 2#4, t.getV 3#4, t.regI) = (0x11#8, 0x22#8, 0x33#8, 0x99#8, 0x400#16) := by decide
/-- V-M18, V-M19. -/
theorem test_ldVxMem_all : (after 0xFF65#16 ((poke 0x50F [7] base).setI 0x500#16)).getV 0xF#4 = 7#8 ∧
    regs (after 0xF165#16 (base.setI 0x200#16)) = (0xF1#8, 0x65#8, 0#8, 0#8) := by decide

/-! ### Framebuffer -/

/-- The lit pixels among the given columns and rows. -/
abbrev lit (s : State) (l : List (Nat × Nat)) : List Bool := l.map fun p => s.displayPixel p.1 p.2

/-- V-D1. -/
theorem test_cls : (after 0x00E0#16 ((base.setFB ((base.fb.flip 0).flip 2047)).setV 0xF#4 3#8)).fb = base.fb ∧
    (after 0x00E0#16 ((base.setFB ((base.fb.flip 0).flip 2047)).setV 0xF#4 3#8)).getV 0xF#4 = 3#8 := by decide
/-- V-D4, V-D5: a collision; the right edge wraps. -/
theorem test_drw : (after 0xD011#16 (((poke 0x300 [0x80] base).setI 0x300#16).setFB (base.fb.flip 0))).getV 0xF#4 = 1#8 ∧
    (after 0xD011#16 (((poke 0x300 [0x80] base).setI 0x300#16).setFB (base.fb.flip 0))).displayPixel 0 0 = false ∧
    lit (after 0xD011#16 (((poke 0x300 [0xFF] base).setI 0x300#16).setV 0#4 62#8)) [(61, 0), (62, 0), (63, 0), (0, 0), (5, 0), (6, 0), (0, 1)] =
      [false, true, true, true, true, false, false] := by decide
/-- V-D6, V-D8, V-D10. -/
theorem test_drw_places : lit (after 0xD011#16 (((poke 0x300 [0xFF] (withParams { Params.standard with drawEdge := .clip })).setI
      0x300#16).setV 0#4 62#8)) [(61, 0), (62, 0), (63, 0), (0, 0), (5, 0)] = [false, true, true, false, false] ∧
    (after 0xD011#16 ((((poke 0x300 [0x80] base).setI 0x300#16).setV 0#4 200#8).setV 1#4 40#8)).displayPixel 8 8 = true ∧
    (after 0xDF01#16 (((poke 0x300 [0x80] base).setI 0x300#16).setV 0xF#4 5#8)).displayPixel 5 0 = true := by decide

/-! ### Timers and keypad -/

/-- V-K2, V-K3. -/
theorem test_skp : (after 0xE09E#16 (base.setV 0#4 5#8)).pc = 0x202#16 ∧
    (after 0xE09E#16 ((base.setV 0#4 0x13#8).setKey 0x0008#16)).pc = 0x204#16 := by decide
/-- V-K4, V-K5. -/
theorem test_sknp : (after 0xE0A1#16 (base.setV 0#4 5#8)).pc = 0x204#16 ∧
    (after 0xE0A1#16 ((base.setV 0#4 5#8).setKey 0x0020#16)).pc = 0x202#16 := by decide
/-- V-K6. -/
theorem test_ldVxDT : (after 0xF307#16 (base.setDT 0x3C#8)).getV 3#4 = 0x3C#8 := by decide
/-- V-K7: no key held. -/
theorem test_ldVxK_waits : after 0xF30A#16 (base.setV 3#4 9#8) = (base.setV 3#4 9#8).placeWord 0xF30A#16 := by decide
/-- V-K8, V-K9. -/
theorem test_ldVxK : (after 0xF30A#16 (base.setKey 0x0084#16)).getV 3#4 = 2#8 ∧ (after 0xF30A#16 (base.setKey 0x0084#16)).pc = 0x202#16 ∧
    (after 0xF30A#16 (base.setKey 0x8000#16)).getV 3#4 = 0x0F#8 := by decide
/-- V-K10. -/
theorem test_ldDTVx : (after 0xF115#16 (base.setV 1#4 0x3C#8)).dt = 0x3C#8 := by decide
/-- V-K11, and the tone of rule R131. -/
theorem test_ldSTVx : (after 0xF118#16 (base.setV 1#4 0x0A#8)).st = 0x0A#8 ∧ (after 0xF118#16 (base.setV 1#4 0x0A#8)).soundOn = true ∧
    base.soundOn = false := by decide

/-! ## Host operations -/

/-- The session of a core that is in its boot phase. -/
abbrev booting (s : State) : Session := ⟨s, .boot⟩

/-- V-K13, V-K14. -/
theorem test_tick : (((base.setDT 2#8).tick).dt, ((base.setDT 2#8).tick).st) = (1#8, 0#8) ∧
    (((base.setST 1#8).tick).dt, ((base.setST 1#8).tick).st) = (0#8, 0#8) := by decide
/-- V-K15. -/
theorem test_setKeys : (booting base).apply (.setKeys 0x0010#16) = .next (booting (base.setKey 0x0010#16)) := rfl
/-- V-S1. -/
theorem test_step_zero : stepBatch 0 base = .next base := rfl
/-- V-S4: a tick in ERROR. -/
theorem test_tick_in_error : control ((base.setDT 3#8).raise .unknownOpcode).tick = (0x200#16, .error, .unknownOpcode) ∧
    ((base.setDT 3#8).raise .unknownOpcode).tick.dt = 2#8 := by decide
/-- V-R1, V-R2. -/
theorem test_reset : (poke 0x050 [1] ((base.setKey 0x0200#16).setV 3#4 1#8)).resetOp = base.setKey 0x0200#16 ∧
    base.resetOp = base := by decide
/-- V-R3. -/
theorem test_first_step_from_reset : (match step State.reset with
    | .next t => control t | .fault _ => control base | .refused _ => control base) = (0x202#16, .running, .none) := by decide
/-- Rule R47: the last address, and the first one beyond it. -/
theorem test_hostWrite_bounds : (booting base).apply (.hostWrite 0x1000 1#8) = .refused .hostWriteOutOfRange ∧
    (booting base).apply (.hostWrite 0xFFF 1#8) = .next (booting (base.setMem [(0xFFF, 1#8)])) ∧
    (⟨base, .run⟩ : Session).apply (.hostWrite 0x200 1#8) = .refused .hostWriteOutsideBoot := ⟨rfl, rfl, rfl⟩
/-- 20_memory.md rule R39: glyph A at 0x082, after the boot. -/
theorem test_font : (match Session.perform (bootOps Params.standard [0x12#8, 0x00#8] 0#16) ⟨base, .powerOn⟩ with
    | .next t => bytesAt t.core [0x082, 0x083, 0x084, 0x085, 0x086, 0x200, 0x201] | .fault _ => [] | .refused _ => []) =
    [0xF0#8, 0x90#8, 0xF0#8, 0x90#8, 0x90#8, 0x12#8, 0x00#8] := by decide
theorem test_withFetchWord : (match step (State.reset.withFetchWord 16 0x6A42) with
    | .next t => t.getV 0xA#4 | .fault _ => 0#8 | .refused _ => 0#8) = 0x42#8 := by decide

/-! ## Witnesses: for each statement with hypotheses, states and operands that meet them, at the bounds of each clause -/

/-- A state that meets the invariant and is not the reset state: memory, stack and registers are written, and PC is the last address
that can be fetched from. -/
abbrev busy : State := ((((poke 0xFFE [0x6A, 0x42] base).push 0x1000#16).setV 0xF#4 0xFF#8).setI 0xFFF#16).setPC 0xFFE#16


theorem test_busy_meets_the_invariant : busy.Inv where
  memory := by decide
  parameters := by decide
  capacity := by decide
  pointer := by decide
  addresses := by
    intro w hw
    have hw : w ∈ 0x1000#16 :: List.replicate 15 0#16 := hw
    simp only [List.mem_cons, List.mem_replicate] at hw
    rcases hw with rfl | ⟨_, rfl⟩ <;> decide
  counter := by decide
  annotation := by decide

/-- DecodeOfEncodeIsTheInstruction. -/
theorem test_witness_decode_of_encode : ((Instr.sys 0x0E1#12).wf = true ∧ (Instr.sys 0x0E1#12).admitted .nop = true) ∧
    (Instr.ldVxMem 0xF#4).wf = true ∧ (Instr.ldVxMem 0xF#4).admitted .fault = true := by decide
/-- EncodeOfDecodeIsTheWord. -/
theorem test_witness_encode_of_decode : decode .fault 0xFF65#16 = .ok (.ldVxMem 0xF#4) ∧ decode .nop 0x0000#16 = .ok (.sys 0#12) :=
  ⟨rfl, rfl⟩
/-- IllegalWordsAreTheTable, its last clause; StepRunsTheDecodedInstruction, its second. -/
theorem test_witness_illegal_word : (poke 0xFFE [0xF0, 0xFF] busy).status = .running ∧ (poke 0xFFE [0xF0, 0xFF] busy).pc.toNat ≤ 0xFFE ∧
    decode (poke 0xFFE [0xF0, 0xFF] busy).params.sysMode (BitVec.ofNat 16 (((poke 0xFFE [0xF0, 0xFF] busy).mem.read 0xFFE).toNat * 256 +
      ((poke 0xFFE [0xF0, 0xFF] busy).mem.read 0xFFF).toNat)) = .error .miscFunction := ⟨rfl, by decide, rfl⟩
/-- StepRunsTheDecodedInstruction, its third clause at the last PC, and its first one above it. -/
theorem test_witness_step : (busy.status = .running ∧ busy.pc.toNat = 0xFFE ∧ (busy.mem.read 0xFFE).toNat * 256 + (busy.mem.read 0xFFF).toNat =
      0x6A42 ∧ decode busy.params.sysMode 0x6A42#16 = .ok (.ldImm 0xA#4 0x42#8)) ∧
    (busy.setPC 0xFFF#16).status = .running ∧ (busy.setPC 0xFFF#16).pc.toNat > 0xFFE ∧
    ((busy.setPC 0xFFF#16).mem.read 0xFFF).toNat * 256 + ((busy.setPC 0xFFF#16).mem.read 0x1000).toNat = 0x4200 :=
  ⟨⟨rfl, rfl, rfl, rfl⟩, rfl, by decide, rfl⟩
/-- PlacedWordIsWhatTheNextStepRuns, at the last word. -/
theorem test_witness_placed_word : busy.mem.wf = true ∧ 0xFF65 < 65536 ∧
    decode busy.params.sysMode (BitVec.ofNat 16 0xFF65) = .ok (.ldVxMem 0xF#4) := ⟨by decide, by decide, rfl⟩
/-- FaultsAreThoseOfTheTable: a RUNNING state for each cause. -/
theorem test_witness_each_cause : nextCause busy = .none ∧ nextCause (base.placeWord 0x5121#16) = .unknownOpcode ∧
    nextCause (({ base with sp := 16 } : State).placeWord 0x2300#16) = .stackOverflow ∧ nextCause (base.placeWord 0x00EE#16) = .stackUnderflow ∧
    nextCause (base.setPC 0xFFF#16) = .fetchOutOfBounds := ⟨rfl, rfl, rfl, rfl, rfl⟩
/-- FaultsArePreciseAndTerminal. -/
theorem test_witness_fault : (base.setPC 0xFFF#16).status = .running ∧
    ∃ t, step (base.setPC 0xFFF#16) = .next t ∧ t.status = .error := ⟨rfl, _, rfl, rfl⟩
/-- ErrorStopsExecution. -/
theorem test_witness_error : (busy.raise .stackOverflow).status = .error := rfl
/-- BatchIsIteratedStep: V-S2, whose second iteration faults. -/
theorem test_witness_batch : (∃ t, stepBatch 1 (poke 0x200 [0x60, 1, 0xFF, 0xFF, 0x61, 2] base) = .next t ∧ t.status = .running) ∧
    ∃ t, stepBatch 2 (poke 0x200 [0x60, 1, 0xFF, 0xFF, 0x61, 2] base) = .next t ∧ t.status = .error := ⟨⟨_, rfl, rfl⟩, _, rfl, rfl⟩
/-- SuccessorsAreTheTable, with the two instructions that can fault, at the bounds of SP. -/
theorem test_witness_successors : base.status = .running ∧ stackCause .ret { base with sp := 1 } = .none ∧
    stackCause .ret { base with sp := 16 } = .none ∧ stackCause (.call 0x300#12) { base with sp := 15 } = .none ∧
    stackCause (.drw 1#4 2#4 3#4) base = .none := by decide
/-- ResetMeetsTheInvariant, with parameters other than the default. -/
theorem test_witness_parameters : ({ Params.standard with stackDepth := 17, fontStart := 0x1B0#12 } : Params).wf = true := by decide
/-- StepKeepsTheInvariant. -/
theorem test_witness_step_invariant : busy.Inv ∧ ∃ t, step busy = .next t := ⟨test_busy_meets_the_invariant, _, rfl⟩
/-- HostOperationsKeepTheInvariant. -/
theorem test_witness_host_invariant : busy.Inv ∧ ∃ t, (booting busy).apply (.hostWrite 0xFFF 0#8) = .next t :=
  ⟨test_busy_meets_the_invariant, _, rfl⟩
/-- OnlyListedInstructionsWriteRegisters: a destination, and VF as a flag. -/
theorem test_witness_register_writes : (∃ t, exec (.ldImm 3#4 1#8) base = .next t ∧ t.getV 3#4 ≠ base.getV 3#4) ∧
    ∃ t, exec (.shr 3#4 3#4) (base.setV 3#4 1#8) = .next t ∧ t.getV 0xF#4 ≠ (base.setV 3#4 1#8).getV 0xF#4 :=
  ⟨⟨_, rfl, by decide⟩, _, rfl, by decide⟩
/-- OnlyListedInstructionsWriteState: an instruction and a state for each component. -/
theorem test_witness_state_writes : (∃ t, exec .cls (base.setFB (base.fb.flip 0)) = .next t ∧ t.fb ≠ base.fb.flip 0) ∧
    (∃ t, exec (.ldMemVx 0#4) (base.setV 0#4 1#8) = .next t ∧ t.mem ≠ base.mem) ∧
    (∃ t, exec (.call 0x300#12) base = .next t ∧ t.stack ≠ base.stack ∧ t.sp ≠ base.sp) ∧
    (∃ t, exec (.ldDTVx 0#4) (base.setV 0#4 1#8) = .next t ∧ t.dt ≠ base.dt) ∧
    (∃ t, exec (.ldSTVx 0#4) (base.setV 0#4 1#8) = .next t ∧ t.st ≠ base.st) ∧
    (∃ t, exec (.ldI 1#12) base = .next t ∧ t.regI ≠ base.regI) ∧
    (∃ t, exec .ret base = .next t ∧ t.status ≠ base.status) ∧ (∃ t, exec (.rnd 0#4 1#8) base = .next t ∧ t.draws ≠ base.draws) :=
  ⟨⟨_, rfl, by decide⟩, ⟨_, rfl, by decide⟩, ⟨_, rfl, by decide, by decide⟩, ⟨_, rfl, by decide⟩, ⟨_, rfl, by decide⟩,
    ⟨_, rfl, by decide⟩, ⟨_, rfl, by decide⟩, _, rfl, by decide⟩
/-- KeypadAndSoundTimerAreNotRead. -/
theorem test_witness_keypad : (∀ x, Instr.cls ≠ .skp x ∧ Instr.cls ≠ .sknp x ∧ Instr.cls ≠ .ldVxK x) ∧ ∃ t, exec .cls busy = .next t :=
  ⟨by decide, _, rfl⟩
/-- DeadStackEntriesAreNotRead: one live entry, all the others different. -/
theorem test_witness_dead_stack : (0x1000#16 :: List.replicate 15 0x0300#16).length = busy.stack.length ∧
    (∀ k, k < busy.sp → (0x1000#16 :: List.replicate 15 0x0300#16)[k]? = busy.stack[k]?) ∧ ∃ t, exec .ret busy = .next t :=
  ⟨by decide, by decide, _, rfl⟩
/-- SysIsANoOp, at the neighbours of the excluded words. -/
theorem test_witness_sys : (0x0E1#12 ≠ 0x0E0#12 ∧ 0x0E1#12 ≠ 0x0EE#12) ∧ (0x0EF#12 ≠ 0x0E0#12 ∧ 0x0EF#12 ≠ 0x0EE#12) := by decide
/-- RetPopsTheReturnAddress: no entry, one entry, and a full stack. -/
theorem test_witness_ret : base.sp = 0 ∧ (busy.sp ≠ 0 ∧ busy.stack[busy.sp - 1]? = some 0x1000#16) ∧
    ({ base with sp := 16 } : State).sp ≠ 0 ∧ ({ base with sp := 16 } : State).stack[15]? = some 0#16 := by decide
/-- CallPushesTheReturnAddress: a full stack, one free entry, and an empty stack. -/
theorem test_witness_call : ({ base with sp := 16 } : State).sp = base.params.stackDepth ∧
    (({ base with sp := 15 } : State).sp < base.params.stackDepth ∧ base.stack.length = base.params.stackDepth) ∧
    base.sp < base.params.stackDepth := by decide
/-- NestedCallsReturn, to the full depth. -/
theorem test_witness_nested_calls : busy.Inv ∧ List.replicate 15 0x300#12 ≠ [] ∧
    busy.sp + (List.replicate 15 0x300#12).length ≤ busy.params.stackDepth := ⟨test_busy_meets_the_invariant, by decide, by decide⟩
/-- The skips: equal and different values, a held key and a released one. -/
theorem test_witness_skips : (busy.getV 0xF#4 = 0xFF#8 ∧ busy.getV 0#4 ≠ 0xFF#8) ∧ (busy.getV 0#4 = busy.getV 1#4 ∧ busy.getV 0#4 ≠ busy.getV 0xF#4) ∧
    (busy.setKey 0x8000#16).key.getLsbD ((busy.getV 0xF#4).toNat % 16) = true ∧ busy.key.getLsbD ((busy.getV 0xF#4).toNat % 16) = false := by
  decide
/-- JpV0, the logic operations, the shifts, the register transfers and DRW: a state for each value of their parameter. -/
theorem test_witness_parameter_values : (base.params.jumpReg = .v0 ∧ base.params.logicVfReset = false ∧ base.params.shiftSrc = .vx ∧
      base.params.memIInc = .none ∧ base.params.drawEdge = .wrap) ∧
    ((withParams { Params.standard with jumpReg := .vx }).params.jumpReg = .vx ∧
      (withParams { Params.standard with logicVfReset := true }).params.logicVfReset = true ∧
      (withParams { Params.standard with shiftSrc := .vy }).params.shiftSrc = .vy ∧
      (withParams { Params.standard with memIInc := .xPlus1 }).params.memIInc = .xPlus1 ∧
      (withParams { Params.standard with memIInc := .x }).params.memIInc = .x) := by decide
/-- LogicOperationsAreBitwise: each listed instruction with its result. -/
theorem test_witness_logic (x y : Nibble) (a b : Nat) : (Instr.xorReg x y, a ^^^ b) ∈
    [(Instr.orReg x y, a ||| b), (.andReg x y, a &&& b), (.xorReg x y, a ^^^ b)] := by simp
/-- BcdStoresThreeDigits and StoreRegistersWritesMemory: I at the top of memory, and the addresses just outside. -/
theorem test_witness_stores : busy.mem.wf = true ∧ (∀ k, k < 3 → 2 ≠ dataAddr busy.regI k ∧ 0xFFE ≠ dataAddr busy.regI k) ∧
    dataAddr busy.regI 0 = 0xFFF ∧ dataAddr busy.regI 2 = 1 ∧ (0xF#4).toNat ≤ (0xF#4).toNat ∧
    (∀ k, k ≤ (0xF#4).toNat → 0xF ≠ dataAddr busy.regI k) := by decide
/-- LoadRegistersReadsMemory: the last register loaded, and the first one above it. -/
theorem test_witness_loads : (3#4).toNat ≤ (3#4).toNat ∧ (4#4).toNat > (3#4).toNat := by decide
/-- LoadAfterStoreGivesTheRegistersBack: all sixteen, across the top of memory. -/
theorem test_witness_load_after_store : busy.mem.wf = true ∧ ∃ t, exec (.ldMemVx 0xF#4) busy = .next t ∧ t.regI = busy.regI :=
  ⟨by decide, _, rfl, rfl⟩
/-- FetchSeesTheStoredBytes: LD [I], V1 at 0xFFC stores the word at 0xFFE. -/
theorem test_witness_fetch_after_store : (base.setI 0xFFE#16).mem.wf = true ∧ (0#4).toNat + 1 ≤ (1#4).toNat ∧
    ∃ t, exec (.ldMemVx 1#4) ((base.setI 0xFFE#16).setPC 0xFFC#16) = .next t ∧ t.pc.toNat ≤ 0xFFE ∧
      t.pc.toNat = dataAddr 0xFFE#16 (0#4).toNat := ⟨by decide, by decide, _, rfl, by decide, by decide⟩
/-- FetchSeesTheStoredBytes: LD B, V0 at 0xFFC stores its first two digits, or its last two, at the last word of memory. -/
theorem test_witness_fetch_after_bcd : (∃ t, exec (.ldBVx 0#4) ((base.setI 0xFFE#16).setPC 0xFFC#16) = .next t ∧ t.pc.toNat ≤ 0xFFE ∧
      t.pc.toNat = dataAddr 0xFFE#16 0) ∧
    ∃ t, exec (.ldBVx 0#4) ((base.setI 0xFFD#16).setPC 0xFFC#16) = .next t ∧ t.pc.toNat ≤ 0xFFE ∧ t.pc.toNat = dataAddr 0xFFD#16 1 :=
  ⟨⟨_, rfl, by decide, by decide⟩, _, rfl, by decide, by decide⟩
/-- CanonicalMemoriesThatReadAlikeAreEqual: built in two orders. -/
theorem test_witness_memories : (poke 1 [7] (poke 0xFFF [8] base)).mem.wf = true ∧
    (poke 1 [7] (poke 0xFFF [8] base)).mem = (poke 0xFFF [8] (poke 1 [7] base)).mem := by decide
/-- DrawingTwiceRestoresTheFramebuffer: a draw without a collision of a sprite with a 1 bit. -/
theorem test_witness_drawing_twice : 1#4 ≠ 0xF#4 ∧ 2#4 ≠ 0xF#4 ∧ base.params.drawEdge = .wrap ∧
    ∃ t, exec (.drw 1#4 2#4 1#4) (poke 0 [0x80] base) = .next t ∧ (∃ r, r < (1#4).toNat ∧ (poke 0 [0x80] base).mem.read (dataAddr 0#16 r) ≠ 0#8) ∧
      t.getV 0xF#4 = 0#8 := ⟨by decide, by decide, rfl, _, rfl, ⟨0, by decide, by decide⟩, by decide⟩
/-- KeyWaitTakesTheLowestKey: key 0, key 15 alone, and no key. -/
theorem test_witness_keys : (base.setKey 0xFFFF#16).key.getLsbD 0 = true ∧
    ((base.setKey 0x8000#16).key.getLsbD 15 = true ∧ ∀ j, j < 15 → (base.setKey 0x8000#16).key.getLsbD j = false) ∧
    ∀ k, k < 16 → base.key.getLsbD k = false := by decide
/-- SetKeysSetsTheKeypadOnly and StepAndTickOfASession, in both of their phases. -/
theorem test_witness_set_keys : (⟨busy, .boot⟩ : Session).phase ≠ .powerOn ∧ (⟨busy.raise .stackOverflow, .run⟩ : Session).phase ≠ .powerOn := by
  decide
/-- HostWriteSetsOneByteDuringBoot: the last address, the first one beyond it, and the other phases. -/
theorem test_witness_host_write : ((booting busy).phase = .boot ∧ 0xFFF ≤ 0xFFF ∧ (booting busy).core.mem.wf = true) ∧ 0x1000 > 0xFFF ∧
    (⟨busy, .run⟩ : Session).phase = .run ∧ (⟨busy, .powerOn⟩ : Session).phase = .powerOn := by decide
/-- ResetGivesEveryComponentItsValue, its first clause. -/
theorem test_witness_error_stays : (busy.raise .stackOverflow).status = .error ∧ HostOp.tick ≠ .reset ∧
    ∃ u, (⟨busy.raise .stackOverflow, .run⟩ : Session).apply .tick = .next u := ⟨rfl, by decide, _, rfl⟩
/-- OnlyResetBeforeTheFirstReset. -/
theorem test_witness_power_on : (⟨busy, .powerOn⟩ : Session).phase = .powerOn ∧ HostOp.step 1 ≠ .reset := by decide
/-- FirstResetAfterPowerOnGivesTheResetState, its last clause: a core in ERROR with keys held. -/
theorem test_witness_first_reset : ((busy.setKey 0xFFFF#16).raise .stackOverflow).params = Params.standard ∧
    ((busy.setKey 0xFFFF#16).raise .stackOverflow).draws = 0 := ⟨rfl, rfl⟩
/-- HostOperationsKeepTheSessionInvariant: before the first RESET, over a core without the machine's invariant, and after it. -/
theorem test_witness_session_invariant : (({ busy with sp := 99 } : State).params.wf = true ∧
      (Session.powerOn { busy with sp := 99 }).Inv ∧ ∃ t, (Session.powerOn { busy with sp := 99 }).apply .reset = .next t) ∧
    (⟨busy, .run⟩ : Session).Inv ∧ ∃ t, (⟨busy, .run⟩ : Session).apply (.step 3) = .next t :=
  ⟨⟨by decide, ⟨fun _ => rfl, by decide, fun h => absurd rfl h⟩, _, rfl⟩,
    ⟨(fun h => nomatch h), by decide, fun _ => test_busy_meets_the_invariant⟩, _, rfl⟩
/-- BootLoadsFontAndRom: the longest ROM and one byte more. -/
theorem test_witness_boot : Params.standard.wf = true ∧ (List.replicate 3584 0xFF#8).length ≤ 3584 ∧
    (List.replicate 3585 0xFF#8).length > 3584 := ⟨by decide, List.length_replicate.le,
  by rw [List.length_replicate]; decide⟩

end Sys2Proof.Tests
end

section
/-! The invariant under each named operation on the state: every instruction is a composition of these. -/

namespace Sys2Proof.Machine

variable {s : State}

/-! ### Updates of components that the invariant does not speak of -/

theorem State.Inv.setV (h : s.Inv) {x : Nibble} {b : Byte} : (s.setV x b).Inv := { h with }

theorem State.Inv.setI (h : s.Inv) {w : Word} : (s.setI w).Inv := { h with }

theorem State.Inv.setDT (h : s.Inv) {b : Byte} : (s.setDT b).Inv := { h with }

theorem State.Inv.setST (h : s.Inv) {b : Byte} : (s.setST b).Inv := { h with }

theorem State.Inv.setKey (h : s.Inv) {k : BitVec 16} : (s.setKey k).Inv := { h with }

theorem State.Inv.setFB (h : s.Inv) {fb : Framebuffer} : (s.setFB fb).Inv := { h with }

theorem State.Inv.countDraw (h : s.Inv) : s.countDraw.Inv := { h with }

theorem State.Inv.setFlag (h : s.Inv) {c : Bool} : (s.setFlag c).Inv := h.setV

theorem State.Inv.setResultAndFlag (h : s.Inv) {x : Nibble} {b : Byte} {c : Bool} :
    (s.setResultAndFlag x b c).Inv := h.setV.setFlag

theorem State.Inv.setLogicResult (h : s.Inv) {x : Nibble} {b : Byte} : (s.setLogicResult x b).Inv := by
  unfold State.setLogicResult
  split
  · exact h.setResultAndFlag
  · exact h.setV

theorem State.Inv.loadRegs (h : s.Inv) {k : Nat} {bs : List Byte} : (State.loadRegs k bs s).Inv := by
  induction bs generalizing k s with
  | nil => exact h
  | cons b rest ih => exact ih h.setV

theorem State.Inv.tick (h : s.Inv) : s.tick.Inv := h.setDT.setST

/-! ### Memory and the program counter -/

theorem State.Inv.setMem (h : s.Inv) {m : Memory} (hm : m.wf = true) : (s.setMem m).Inv := { h with memory := hm }

theorem State.Inv.setPC (h : s.Inv) {w : Word} (hw : w.toNat ≤ 0x1002) : (s.setPC w).Inv := { h with counter := hw }

/-- From an address that can be fetched from, `next` stays within the values of PC. -/
theorem State.Inv.advance (h : s.Inv) (hpc : s.pc.toNat ≤ lastFetch) : s.advance.Inv :=
  h.setPC (by unfold lastFetch at hpc; bv_omega)

/-- From an address that can be fetched from, `skip` stays within the values of PC: 0xFFE + 4 = 0x1002. -/
theorem State.Inv.skipWhen (h : s.Inv) (hpc : s.pc.toNat ≤ lastFetch) {taken : Bool} : (s.skipWhen taken).Inv := by
  cases taken with
  | true => exact h.setPC (by unfold lastFetch at hpc; bv_omega)
  | false => exact h.advance hpc

/-- A jump target given by the `nnn` field is an address of memory. -/
theorem zext16_addr_le (nnn : Addr) : (zext16 nnn).toNat ≤ 0x1002 := by
  have := nnn.isLt
  simp only [zext16, BitVec.toNat_setWidth]
  omega

/-- The target of JP V0 is masked to an address of memory (41_flow.md rule R85). -/
theorem jumpTarget_le (nnn : Addr) (offset : Byte) : (jumpTarget nnn offset).toNat ≤ 0x1002 := by
  have hmask : (jumpTarget nnn offset).toNat ≤ 0x0FFF := by
    rw [jumpTarget, BitVec.toNat_and]
    exact Nat.and_le_right
  omega

/-! ### The stack, faults and RESET -/

/-- CALL's push: below the capacity, and of the successor of an address that can be fetched from. -/
theorem State.Inv.push (h : s.Inv) {w : Word} (hsp : s.sp ≠ s.params.stackDepth) (hw : w.toNat ≤ 0x1000) :
    (s.push w).Inv :=
  { h with
    capacity := by simpa using h.capacity
    pointer := Nat.lt_of_le_of_ne h.pointer hsp
    addresses := fun v hv => by
      rcases List.mem_or_eq_of_mem_set hv with hold | rfl
      · exact h.addresses v hold
      · exact hw }

theorem State.Inv.pop (h : s.Inv) : s.pop.Inv := { h with pointer := (Nat.sub_le s.sp 1).trans h.pointer }

/-- The return address that RET reads is a stored one, or 0 where none is stored (log 10). -/
theorem State.Inv.topOfStack_le (h : s.Inv) : s.topOfStack.toNat ≤ 0x1000 := by
  rw [State.topOfStack, List.getD_eq_getElem?_getD]
  cases he : s.stack[s.sp - 1]? with
  | none => simp
  | some w => exact h.addresses w (List.mem_of_getElem? he)

theorem State.Inv.raise (h : s.Inv) {cause : Cause} (hc : cause ≠ .none) : (s.raise cause).Inv :=
  { h with annotation := ⟨nofun, fun hnone => absurd hnone hc⟩ }

/-- RESET establishes the invariant; of what it keeps, only the parameters matter (log 8). -/
theorem State.inv_afterReset {params : Params} (hp : params.wf = true) (key : BitVec 16) (draws : Nat) :
    (State.afterReset params key draws).Inv where
  memory := rfl
  parameters := hp
  capacity := List.length_replicate
  pointer := Nat.zero_le _
  addresses := fun w hw => by simp [List.eq_of_mem_replicate hw]
  counter := show (BitVec.ofNat 16 romStart).toNat ≤ 0x1002 by decide
  annotation := ⟨fun _ => rfl, fun _ => rfl⟩

theorem State.inv_resetOp (hp : s.params.wf = true) : s.resetOp.Inv := State.inv_afterReset hp s.key s.draws

end Sys2Proof.Machine
end

section
/-! Every step gives a next state, and keeps the invariant; and so does every batch of steps. -/

namespace Sys2Proof.Machine

/-- No instruction stops the model: an ExecutionFault is a next state (60_exceptions.md rule R118). -/
theorem exec_next (i : Instr) (s : State) : ∃ t, exec i s = .next t := by
  cases i with
  | ret =>
    by_cases h : s.sp = 0
    · exact ⟨_, if_pos h⟩
    · exact ⟨_, if_neg h⟩
  | call nnn =>
    by_cases h : s.sp = s.params.stackDepth
    · exact ⟨_, if_pos h⟩
    · exact ⟨_, if_neg h⟩
  | ldVxK x =>
    simp only [exec, execLdVxK]
    split <;> exact ⟨_, rfl⟩
  | _ => exact ⟨_, rfl⟩

theorem step_next (s : State) : ∃ t, step s = .next t := by
  unfold step
  split
  · exact ⟨_, rfl⟩
  · split
    · exact exec_next _ s
    · exact ⟨_, rfl⟩

theorem stepBatch_next (n : Nat) (s : State) : ∃ t, stepBatch n s = .next t := by
  induction n generalizing s with
  | zero => exact ⟨s, stepBatch_zero s⟩
  | succ n ih =>
    cases hs : s.status with
    | error => exact ⟨s, stepBatch_succ_error n s hs⟩
    | running =>
      obtain ⟨u, hu⟩ := step_next s
      rw [stepBatch_succ_running n s u hs hu]
      exact ih u

/-- RET takes a stored return address, or faults (41_flow.md rule R78). -/
theorem execRet_keeps_inv {s t : State} (h : s.Inv) (he : execRet s = .next t) : t.Inv := by
  unfold execRet at he
  split at he
  · cases he
    exact h.raise nofun
  · cases he
    exact h.pop.setPC (h.topOfStack_le.trans (by decide))

/-- CALL pushes a return address of at most 0x1000 below the capacity, or faults (41_flow.md rule R80). -/
theorem execCall_keeps_inv {nnn : Addr} {s t : State} (h : s.Inv) (hpc : s.pc.toNat ≤ lastFetch)
    (he : execCall nnn s = .next t) : t.Inv := by
  unfold execCall at he
  split at he
  · cases he
    exact h.raise nofun
  · rename_i hsp
    cases he
    exact (h.push hsp (by unfold lastFetch at hpc; bv_omega)).setPC (zext16_addr_le nnn)

/-- An instruction at an address it can be fetched from keeps the invariant. -/
theorem exec_keeps_inv {i : Instr} {s t : State} (h : s.Inv) (hpc : s.pc.toNat ≤ lastFetch)
    (he : exec i s = .next t) : t.Inv := by
  cases i with
  | ret => exact execRet_keeps_inv h he
  | call nnn => exact execCall_keeps_inv h hpc he
  | jp nnn => cases he; exact h.setPC (zext16_addr_le nnn)
  | jpV0 nnn => cases he; exact h.setPC (jumpTarget_le nnn _)
  | seImm _ _ | sneImm _ _ | seReg _ _ | sneReg _ _ | skp _ | sknp _ => cases he; exact h.skipWhen hpc
  | sys _ => cases he; exact h.advance hpc
  | cls => cases he; exact h.setFB.advance hpc
  | drw _ _ _ => cases he; exact h.setFB.setFlag.advance hpc
  | ldImm _ _ | addImm _ _ | ldReg _ _ | ldVxDT _ => cases he; exact h.setV.advance hpc
  | orReg _ _ | andReg _ _ | xorReg _ _ => cases he; exact h.setLogicResult.advance (by simpa using hpc)
  | addReg _ _ | sub _ _ | shr _ _ | subn _ _ | shl _ _ => cases he; exact h.setResultAndFlag.advance hpc
  | rnd _ _ => cases he; exact h.setV.countDraw.advance hpc
  | ldVxK x =>
    simp only [exec, execLdVxK] at he
    split at he
    · cases he; exact h.setV.advance hpc
    · cases he; exact h
  | ldDTVx _ => cases he; exact h.setDT.advance hpc
  | ldSTVx _ => cases he; exact h.setST.advance hpc
  | ldI _ | addIVx _ | ldFVx _ => cases he; exact h.setI.advance hpc
  | ldBVx _ => cases he; exact (h.setMem (storeBytes_wf _ _ _ _ h.memory)).advance hpc
  | ldMemVx _ => cases he; exact (h.setMem (storeBytes_wf _ _ _ _ h.memory)).setI.advance hpc
  | ldVxMem _ => cases he; exact h.loadRegs.setI.advance (by simpa using hpc)

/-- A fetch that succeeds was in bounds (40_cycle.md rule R71). -/
theorem State.pc_le_of_fetchInstr_ok {s : State} {i : Instr} (h : s.fetchInstr = .ok i) : s.pc.toNat ≤ lastFetch := by
  obtain ⟨-, herr⟩ | ⟨hpc, -⟩ := s.fetchInstr_cases
  · rw [herr] at h
    cases h
  · exact hpc

/-- The fetch never fails with the cause `NONE`. -/
theorem State.cause_ne_none_of_fetchInstr_error {s : State} {cause : Cause} (h : s.fetchInstr = .error cause) :
    cause ≠ .none := by
  obtain ⟨-, herr⟩ | ⟨-, w, -, ⟨e, -, herr⟩ | ⟨i, -, hok⟩⟩ := s.fetchInstr_cases
  · cases herr.symm.trans h
    nofun
  · cases herr.symm.trans h
    nofun
  · cases hok.symm.trans h

theorem step_keeps_inv {s t : State} (h : s.Inv) (hs : step s = .next t) : t.Inv := by
  obtain ⟨-, rfl⟩ | ⟨-, cause, hf, rfl⟩ | ⟨-, i, hf, he⟩ := step_cases hs
  · exact h
  · exact h.raise (State.cause_ne_none_of_fetchInstr_error hf)
  · exact exec_keeps_inv h (State.pc_le_of_fetchInstr_ok hf) he

theorem stepBatch_keeps_inv {n : Nat} {s t : State} (h : s.Inv) (hs : stepBatch n s = .next t) : t.Inv := by
  induction n generalizing s with
  | zero => cases hs; exact h
  | succ n ih =>
    cases hst : s.status with
    | error =>
      rw [stepBatch_succ_error n s hst] at hs
      cases hs
      exact h
    | running =>
      obtain ⟨u, hu⟩ := step_next s
      rw [stepBatch_succ_running n s u hst hu] at hs
      exact ih (step_keeps_inv h hu) hs

end Sys2Proof.Machine
end

section
/-! The host operations on the core of a session, and the statements of 00_scope.md rule R8. -/

namespace Sys2Proof.Machine

theorem sessionOf_eq_next_iff {phase : Phase} {o : Host.Outcome State Fault Refusal} {u : Session} :
    sessionOf phase o = .next u ↔ ∃ t, o = .next t ∧ u = ⟨t, phase⟩ := by
  cases o <;> simp [sessionOf, eq_comm]

theorem hostWrite_eq_next_iff {a : Nat} {b : Byte} {s t : State} :
    hostWrite a b s = .next t ↔ a < memSize ∧ t = s.setMem (s.mem.write a b) := by
  unfold hostWrite
  split <;> simp [*, eq_comm]

theorem hostWrite_keeps_inv {a : Nat} {b : Byte} {s t : State} (h : s.Inv) (hw : hostWrite a b s = .next t) : t.Inv := by
  obtain ⟨ha, rfl⟩ := hostWrite_eq_next_iff.mp hw
  exact h.setMem (Memory.write_wf s.mem b h.memory ha)

theorem Session.applyAfterReset_keeps_inv {s t : Session} {op : HostOp} (h : s.core.Inv)
    (ho : s.applyAfterReset op = .next t) : t.core.Inv := by
  cases op with
  | reset => cases ho; exact State.inv_resetOp h.parameters
  | step n =>
    obtain ⟨u, hu, rfl⟩ := sessionOf_eq_next_iff.mp ho
    exact stepBatch_keeps_inv h hu
  | tick => cases ho; exact h.tick
  | setKeys k => cases ho; exact h.setKey
  | hostWrite a b =>
    simp only [Session.applyAfterReset] at ho
    split at ho
    · obtain ⟨u, hu, rfl⟩ := sessionOf_eq_next_iff.mp ho
      exact hostWrite_keeps_inv h hu
    · cases ho
    · cases ho

/-- Settles O15: before the first RESET only RESET is accepted, which establishes the invariant; after it each operation is one
on the core that keeps it, STEP by induction over the batch. -/
theorem hostOperationsKeepTheInvariant : Obligations.HostOperationsKeepTheInvariant := by
  intro s t op h ho
  by_cases hp : s.phase = .powerOn
  · obtain ⟨-, rfl⟩ := Session.apply_of_powerOn hp ho
    exact State.inv_resetOp h.parameters
  · rw [Session.apply_of_reset s op hp] at ho
    exact Session.applyAfterReset_keeps_inv h ho

/-- Settles O55: a batch never stops the model, so that STEP is accepted with the core the batch gives. -/
theorem stepAndTickOfASession : Obligations.StepAndTickOfASession := by
  intro s hp
  refine ⟨fun n => ?_, Session.apply_of_reset s .tick hp⟩
  obtain ⟨t, ht⟩ := stepBatch_next n s.core
  have hstep : s.apply (.step n) = .next ⟨t, .run⟩ :=
    (Session.apply_of_reset s (.step n) hp).trans (sessionOf_eq_next_iff.mpr ⟨t, ht, rfl⟩)
  exact ⟨t, ht, hstep, fun _ _ => rfl⟩

end Sys2Proof.Machine
end

section
/-! Who writes what (10_state.md): the ways the branching instructions end, and the statements of the step's invariant, of the
registers and of the other components. -/

namespace Sys2Proof.Machine

/-- Settles O14: of an idle core, of a fault before the instruction, and of every instruction. -/
theorem stepKeepsTheInvariant : Obligations.StepKeepsTheInvariant := fun _ _ h hs => step_keeps_inv h hs

/-! ### The instructions that end in more than one way -/

/-- The two ways RET ends (41_flow.md rule R78). -/
theorem execRet_eq_next_iff {s t : State} : execRet s = .next t ↔
    (s.sp = 0 ∧ t = s.raise .stackUnderflow) ∨ (s.sp ≠ 0 ∧ t = s.pop.setPC s.topOfStack) := by
  unfold execRet
  split <;> simp [*, eq_comm]

/-- The two ways CALL ends (41_flow.md rule R80). -/
theorem execCall_eq_next_iff {nnn : Addr} {s t : State} : execCall nnn s = .next t ↔
    (s.sp = s.params.stackDepth ∧ t = s.raise .stackOverflow) ∨
    (s.sp ≠ s.params.stackDepth ∧ t = (s.push (s.pc + 2#16)).setPC (zext16 nnn)) := by
  unfold execCall
  split <;> simp [*, eq_comm]

/-- The two ways LD Vx, K ends (45_timer_keypad.md rule R113). -/
theorem execLdVxK_eq_next_iff {x : Nibble} {s t : State} : execLdVxK x s = .next t ↔
    (s.lowestKey = none ∧ t = s) ∨ ∃ k, s.lowestKey = some k ∧ t = (s.setV x (BitVec.ofNat 8 k)).advance := by
  unfold execLdVxK
  split <;> simp [*, eq_comm]

/-! ### The registers that change -/

section
variable {x z : Nibble} {b : Byte} {c : Bool} {s : State}

theorem State.eq_of_getV_setV_ne (h : (s.setV x b).getV z ≠ s.getV z) : z = x :=
  not_imp_comm.mp (State.getV_setV_of_ne x z b s) h

theorem State.eq_vf_of_getV_setFlag_ne (h : (s.setFlag c).getV z ≠ s.getV z) : z = vf := State.eq_of_getV_setV_ne h

theorem State.eq_or_eq_vf_of_getV_setResultAndFlag_ne (h : (s.setResultAndFlag x b c).getV z ≠ s.getV z) :
    z = x ∨ z = vf := by
  rw [State.getV_setResultAndFlag] at h
  grind

theorem State.eq_or_eq_vf_of_getV_setLogicResult_ne (h : (s.setLogicResult x b).getV z ≠ s.getV z) :
    z = x ∨ (z = vf ∧ s.params.logicVfReset = true) := by
  rw [State.getV_setLogicResult] at h
  grind

theorem State.toNat_le_of_getV_loadRegs_ne (h : (State.loadRegs 0 (s.readBytes (x.toNat + 1)) s).getV z ≠ s.getV z) :
    z.toNat ≤ x.toNat := by
  have hx := x.isLt
  rw [State.getV_loadRegs _ _ _ _ (by simpa using hx), if_pos (Nat.zero_le _)] at h
  by_contra hz
  exact h (List.getD_eq_default _ _ (by simp; omega))

end

/-- Settles O16: an instruction's register update is one of V[x], of V[x] and VF, of VF alone, or of V0 to Vx; the
change of V[z] says that z is among them. -/
theorem onlyListedInstructionsWriteRegisters : Obligations.OnlyListedInstructionsWriteRegisters := by
  intro i s t z he hz
  cases i with
  | ret =>
    obtain ⟨-, rfl⟩ | ⟨-, rfl⟩ := execRet_eq_next_iff.mp he <;> simp at hz
  | call nnn =>
    obtain ⟨-, rfl⟩ | ⟨-, rfl⟩ := execCall_eq_next_iff.mp he <;> simp at hz
  | sys _ | cls | jp _ | jpV0 _ | ldDTVx _ | ldSTVx _ | ldI _ | addIVx _ | ldFVx _ | ldBVx _ | ldMemVx _
  | seImm _ _ | sneImm _ _ | seReg _ _ | sneReg _ _ | skp _ | sknp _ => cases he; simp at hz
  | ldImm x _ | addImm x _ | ldReg x _ | ldVxDT x | rnd x _ =>
    cases he
    exact .inl (beq_iff_eq.mpr (State.eq_of_getV_setV_ne hz))
  | orReg x _ | andReg x _ | xorReg x _ =>
    cases he
    exact (State.eq_or_eq_vf_of_getV_setLogicResult_ne hz).imp beq_iff_eq.mpr id
  | addReg x _ | sub x _ | shr x _ | subn x _ | shl x _ =>
    cases he
    exact (State.eq_or_eq_vf_of_getV_setResultAndFlag_ne hz).imp beq_iff_eq.mpr (⟨·, rfl⟩)
  | drw _ _ _ =>
    cases he
    exact .inr ⟨State.eq_vf_of_getV_setFlag_ne hz, rfl⟩
  | ldVxK x =>
    obtain ⟨-, rfl⟩ | ⟨k, -, rfl⟩ := execLdVxK_eq_next_iff.mp he
    · exact absurd rfl hz
    · exact .inl (beq_iff_eq.mpr (State.eq_of_getV_setV_ne hz))
  | ldVxMem x =>
    cases he
    exact .inl (decide_eq_true (State.toNat_le_of_getV_loadRegs_ne hz))

/-! ### The other components that change -/

/-- Only with `QUIRK_MEM_I_INC` other than `NONE` does a transfer move I (43_index_memory.md rules R105, R106). -/
theorem inc_ne_none_of_indexAfterTransfer_ne {inc : IndexIncrement} {base : Word} {x : Nibble}
    (h : indexAfterTransfer inc base x ≠ base) : inc ≠ .none := by
  rintro rfl
  exact h rfl

/-- Settles O17, by instruction: each is a composition of named operations, and each operation leaves the components
it does not name as they are; RET, CALL and LD Vx, K by the way they end. -/
theorem onlyListedInstructionsWriteState : Obligations.OnlyListedInstructionsWriteState := by
  intro i s t he
  cases i with
  | ret => obtain ⟨-, rfl⟩ | ⟨-, rfl⟩ := execRet_eq_next_iff.mp he <;> simp
  | call nnn => obtain ⟨-, rfl⟩ | ⟨-, rfl⟩ := execCall_eq_next_iff.mp he <;> simp
  | ldVxK x => obtain ⟨-, rfl⟩ | ⟨k, -, rfl⟩ := execLdVxK_eq_next_iff.mp he <;> simp
  | rnd _ _ => cases he; simp [State.takeDraw]
  | ldMemVx x | ldVxMem x => cases he; simpa using inc_ne_none_of_indexAfterTransfer_ne
  | _ => cases he; simp

end Sys2Proof.Machine
end

section
/-! What no instruction reads, or only the instructions named (10_state.md rules R25, R26, R32): two runs compared. -/

namespace Sys2Proof.Machine

/-- The state with other values of the components that few instructions read: the keypad, the sound timer and the
stack. -/
def State.overlay (key : BitVec 16 → BitVec 16) (sound : Byte → Byte) (stack : List Word → List Word)
    (s : State) : State :=
  { s with key := key s.key, st := sound s.st, stack := stack s.stack }

section
variable {key : BitVec 16 → BitVec 16} {sound : Byte → Byte} {stack : List Word → List Word}

@[simp] theorem State.overlay_stack (s : State) : (s.overlay key sound stack).stack = stack s.stack := rfl

@[simp] theorem State.overlay_params (s : State) : (s.overlay key sound stack).params = s.params := rfl

theorem State.overlay_skipWhen (c : Bool) (s : State) :
    (s.overlay key sound stack).skipWhen c = (s.skipWhen c).overlay key sound stack := by cases c <;> rfl

theorem State.overlay_setLogicResult (x : Nibble) (b : Byte) (s : State) :
    (s.overlay key sound stack).setLogicResult x b = (s.setLogicResult x b).overlay key sound stack := by
  rw [State.setLogicResult, State.setLogicResult, State.overlay_params]
  split <;> rfl

theorem State.overlay_loadRegs (k : Nat) (bs : List Byte) (s : State) :
    State.loadRegs k bs (s.overlay key sound stack) = (State.loadRegs k bs s).overlay key sound stack := by
  induction bs generalizing k s with
  | nil => rfl
  | cons b rest ih => exact ih (k + 1) (s.setV (BitVec.ofNat 4 k) b)

/-- An instruction that does not touch the components that are overlaid runs the same under the overlay. -/
theorem exec_overlay {i : Instr} {s t : State}
    (hkey : (∀ x, i ≠ .skp x ∧ i ≠ .sknp x ∧ i ≠ .ldVxK x) ∨ key = id)
    (hsound : (∀ x, i ≠ .ldSTVx x) ∨ sound = id)
    (hstack : (i ≠ .ret ∧ ∀ nnn, i ≠ .call nnn) ∨ stack = id)
    (he : exec i s = .next t) : exec i (s.overlay key sound stack) = .next (t.overlay key sound stack) := by
  cases i with
  | ret =>
    obtain rfl := hstack.resolve_left fun h => h.1 rfl
    obtain ⟨hsp, rfl⟩ | ⟨hsp, rfl⟩ := execRet_eq_next_iff.mp he
    · exact execRet_eq_next_iff.mpr (.inl ⟨hsp, rfl⟩)
    · exact execRet_eq_next_iff.mpr (.inr ⟨hsp, rfl⟩)
  | call nnn =>
    obtain rfl := hstack.resolve_left fun h => h.2 nnn rfl
    obtain ⟨hsp, rfl⟩ | ⟨hsp, rfl⟩ := execCall_eq_next_iff.mp he
    · exact execCall_eq_next_iff.mpr (.inl ⟨hsp, rfl⟩)
    · exact execCall_eq_next_iff.mpr (.inr ⟨hsp, rfl⟩)
  | skp x =>
    obtain rfl := hkey.resolve_left fun h => (h x).1 rfl
    cases he
    exact congrArg _ (State.overlay_skipWhen _ s)
  | sknp x =>
    obtain rfl := hkey.resolve_left fun h => (h x).2.1 rfl
    cases he
    exact congrArg _ (State.overlay_skipWhen _ s)
  | ldVxK x =>
    obtain rfl := hkey.resolve_left fun h => (h x).2.2 rfl
    obtain ⟨hk, rfl⟩ | ⟨k, hk, rfl⟩ := execLdVxK_eq_next_iff.mp he
    · exact execLdVxK_eq_next_iff.mpr (.inl ⟨hk, rfl⟩)
    · exact execLdVxK_eq_next_iff.mpr (.inr ⟨k, hk, rfl⟩)
  | ldSTVx x =>
    obtain rfl := hsound.resolve_left fun h => h x rfl
    cases he
    rfl
  | seImm _ _ | sneImm _ _ | seReg _ _ | sneReg _ _ => cases he; exact congrArg _ (State.overlay_skipWhen _ s)
  | orReg _ _ | andReg _ _ | xorReg _ _ =>
    cases he
    exact congrArg (Host.Outcome.next ∘ State.advance) (State.overlay_setLogicResult _ _ s)
  | ldVxMem x =>
    cases he
    exact congrArg (fun u => Host.Outcome.next (u.setI (indexAfterTransfer s.params.memIInc s.regI x)).advance)
      (State.overlay_loadRegs 0 (s.readBytes (x.toNat + 1)) s)
  | _ => cases he; rfl

end

/-- Settles O18: another keypad, or another ST, is an overlay; LD ST, Vx, which writes ST, overwrites it. -/
theorem keypadAndSoundTimerAreNotRead : Obligations.KeypadAndSoundTimerAreNotRead := by
  refine ⟨fun i s t k hi he => ?_, fun i s t b he => ?_⟩
  · exact exec_overlay (key := fun _ => k) (.inl hi) (.inr rfl) (.inr rfl) he
  · by_cases hi : ∃ x, i = .ldSTVx x
    · obtain ⟨x, rfl⟩ := hi
      cases he
      exact ⟨_, rfl, rfl⟩
    · exact ⟨_, exec_overlay (sound := fun _ => b) (.inr rfl) (.inl (not_exists.mp hi)) (.inr rfl) he, rfl⟩

/-- RET's return address is a live entry (10_state.md rule R25). -/
theorem State.topOfStack_withStack {s : State} {other : List Word} (hsp : s.sp ≠ 0)
    (h : ∀ k, k < s.sp → other[k]? = s.stack[k]?) : { s with stack := other }.topOfStack = s.topOfStack := by
  simp only [State.topOfStack, List.getD_eq_getElem?_getD, h (s.sp - 1) (by omega)]

/-- Settles O19: RET reads the live entry at SP - 1 and CALL writes the entry at SP, which becomes live; under every other
instruction the stack is an overlay that stays. -/
theorem deadStackEntriesAreNotRead : Obligations.DeadStackEntriesAreNotRead := by
  intro i s t other hlen h he
  by_cases hret : i = .ret
  · subst hret
    obtain ⟨hsp, rfl⟩ | ⟨hsp, rfl⟩ := execRet_eq_next_iff.mp he
    · exact ⟨_, execRet_eq_next_iff.mpr (.inl ⟨hsp, rfl⟩), rfl, hlen, h⟩
    · refine ⟨_, execRet_eq_next_iff.mpr (.inr ⟨hsp, rfl⟩), ?_, hlen, fun k hk => h k (Nat.lt_of_lt_pred hk)⟩
      rw [State.topOfStack_withStack hsp h]
      rfl
  by_cases hcall : ∃ nnn, i = .call nnn
  · obtain ⟨nnn, rfl⟩ := hcall
    obtain ⟨hsp, rfl⟩ | ⟨hsp, rfl⟩ := execCall_eq_next_iff.mp he
    · exact ⟨_, execCall_eq_next_iff.mpr (.inl ⟨hsp, rfl⟩), rfl, hlen, h⟩
    · refine ⟨_, execCall_eq_next_iff.mpr (.inr ⟨hsp, rfl⟩), rfl, by simpa using hlen, fun k hk => ?_⟩
      simp only [State.setPC_stack, State.push_stack, State.setPC_sp, State.push_sp] at hk ⊢
      rcases Nat.lt_succ_iff_lt_or_eq.mp hk with hlt | rfl
      · simp [List.getElem?_set, h k hlt, hlen]
      · simp [List.getElem?_set, hlen]
  obtain ⟨-, -, hst, hsp, -⟩ := onlyListedInstructionsWriteState i s t he
  have hstack : t.stack = s.stack := not_not.mp fun hne => hcall (hst hne)
  have hsp : t.sp = s.sp := not_not.mp fun hne => (hsp hne).elim hret hcall
  have hu := exec_overlay (stack := fun _ => other) (.inr rfl) (.inr rfl) (.inl ⟨hret, not_exists.mp hcall⟩) he
  exact ⟨_, hu, rfl, by simpa [hstack] using hlen, by simpa [hstack, hsp] using h⟩

end Sys2Proof.Machine
end

section
/-! The statements of 20_memory.md: the canonical form of memory, the fetch, the fetch after a store, and HOST_WRITE. -/

namespace Sys2Proof.Machine

/-! ### Canonical memories -/

section
variable {lo k a : Nat} {b : Byte} {m : Memory}

theorem Memory.read_cons_self : Memory.read ((k, b) :: m) k = b := if_pos rfl

/-- The first listed address is the least one whose byte is not the unlisted one. -/
theorem Memory.head_le_of_read_ne (hm : Memory.wfFrom lo ((k, b) :: m) = true)
    (ha : Memory.read ((k, b) :: m) a ≠ Memory.unlisted) : k ≤ a := by
  obtain ⟨-, htail⟩ := (Memory.wfFrom_cons ..).mp hm
  have hk : Memory.wfFrom k ((k, b) :: m) = true := (Memory.wfFrom_cons ..).mpr ⟨Nat.le_refl k, htail⟩
  exact Nat.le_of_not_lt fun hlt => ha (Memory.read_below _ hk hlt)

/-- What a canonical memory reads as without its first entry. -/
theorem Memory.read_tail (hm : Memory.wfFrom lo ((k, b) :: m) = true) :
    Memory.read m a = if a = k then Memory.unlisted else Memory.read ((k, b) :: m) a := by
  obtain ⟨-, -, -, htail⟩ := (Memory.wfFrom_cons ..).mp hm
  split
  · exact Memory.read_below m htail (by omega)
  · rename_i hne
    exact (if_neg hne).symm

end

theorem Memory.eq_of_read_eq {lo : Nat} {m m' : Memory} (hm : Memory.wfFrom lo m = true)
    (hm' : Memory.wfFrom lo m' = true) (h : ∀ a, a < memSize → m.read a = m'.read a) : m = m' := by
  induction m generalizing lo m' with
  | nil =>
    cases m' with
    | nil => rfl
    | cons e' rest' =>
      obtain ⟨-, hlt, hb, -⟩ := (Memory.wfFrom_cons ..).mp hm'
      exact absurd ((h _ hlt).trans Memory.read_cons_self).symm hb
  | cons e rest ih =>
    obtain ⟨k, b⟩ := e
    obtain ⟨-, hlt, hb, htail⟩ := (Memory.wfFrom_cons ..).mp hm
    cases m' with
    | nil => exact absurd (Memory.read_cons_self.symm.trans (h k hlt)) hb
    | cons e' rest' =>
      obtain ⟨k', b'⟩ := e'
      obtain ⟨-, hlt', hb', htail'⟩ := (Memory.wfFrom_cons ..).mp hm'
      have hk : k = k' := Nat.le_antisymm
        (Memory.head_le_of_read_ne hm (by rwa [h k' hlt', Memory.read_cons_self]))
        (Memory.head_le_of_read_ne hm' (by rwa [← h k hlt, Memory.read_cons_self]))
      subst hk
      have hbyte : b = b' := by simpa only [Memory.read_cons_self] using h k hlt
      have hrest : rest = rest' := ih htail htail' fun a ha => by
        rw [Memory.read_tail hm, Memory.read_tail hm', h a ha]
      rw [hbyte, hrest]

/-- Settles O41, by induction over one memory: both list the same first address, the least one with a byte other than the
unlisted one, and so the rests read alike too. -/
theorem canonicalMemoriesThatReadAlikeAreEqual : Obligations.CanonicalMemoriesThatReadAlikeAreEqual :=
  fun _ _ hm hm' h => Memory.eq_of_read_eq hm hm' h

/-! ### The step -/

/-- A fault changes STATUS and the cause annotation and nothing else (60_exceptions.md rule R118). -/
theorem State.faulted_raise (cause : Cause) (s : State) : Faulted cause s (s.raise cause) :=
  ⟨rfl, rfl, by constructor <;> simp⟩

section
variable {s : State}

theorem State.fetchWord_of_le (h : s.pc.toNat ≤ lastFetch) :
    s.fetchWord = some (wordOfBytes (s.mem.read s.pc.toNat) (s.mem.read (s.pc.toNat + 1))) :=
  if_neg (Nat.not_lt.mpr h)

theorem State.fetchInstr_of_gt (h : s.pc.toNat > lastFetch) : s.fetchInstr = .error .fetchOutOfBounds := by
  have hf : s.fetchWord = none := if_pos h
  rw [State.fetchInstr, hf]

theorem State.fetchInstr_of_decode_error {w : Word} {e : DecodeError} (hw : s.fetchWord = some w)
    (hd : decode s.params.sysMode w = .error e) : s.fetchInstr = .error .unknownOpcode := by
  simp only [State.fetchInstr, hw, hd]

theorem State.fetchInstr_of_decode_ok {w : Word} {i : Instr} (hw : s.fetchWord = some w)
    (hd : decode s.params.sysMode w = .ok i) : s.fetchInstr = .ok i := by
  simp only [State.fetchInstr, hw, hd]

theorem step_of_fetchInstr_error {cause : Cause} (hs : s.status = .running) (hf : s.fetchInstr = .error cause) :
    step s = .next (s.raise cause) := by
  simp only [step, hs, hf]

theorem step_of_fetchInstr_ok {i : Instr} (hs : s.status = .running) (hf : s.fetchInstr = .ok i) : step s = exec i s := by
  simp only [step, hs, hf]

end

/-- Settles O5: `w` is the word fetched, and the three clauses are the three ways the fetch ends. -/
theorem stepRunsTheDecodedInstruction : Obligations.StepRunsTheDecodedInstruction := by
  intro s w hs hw
  obtain rfl : w = wordOfBytes (s.mem.read s.pc.toNat) (s.mem.read (s.pc.toNat + 1)) :=
    BitVec.eq_of_toNat_eq (hw.trans (wordOfBytes_toNat ..).symm)
  refine ⟨fun hpc => ?_, fun hpc e hd => ?_, fun hpc i hd => ?_⟩
  · exact ⟨_, step_of_fetchInstr_error hs (State.fetchInstr_of_gt hpc), State.faulted_raise _ s⟩
  · have hf := State.fetchInstr_of_decode_error (State.fetchWord_of_le hpc) hd
    exact ⟨_, step_of_fetchInstr_error hs hf, State.faulted_raise _ s⟩
  · exact step_of_fetchInstr_ok hs (State.fetchInstr_of_decode_ok (State.fetchWord_of_le hpc) hd)

/-! ### The fetch after a store -/

/-- Below the last address of memory the bytes of a data access follow one another (20_memory.md rule R42). -/
theorem dataAddr_succ {base : Word} {k : Nat} (h : dataAddr base k ≤ lastFetch) :
    dataAddr base (k + 1) = dataAddr base k + 1 := by
  unfold dataAddr memSize lastFetch at *
  omega

/-- The fetch sees what a data access stored at PC and PC + 1 (20_memory.md rule R52). -/
theorem State.fetchWord_of_storeBytes {t : State} {base : Word} {bs : List Byte} {m : Memory} {j : Nat}
    (hm : m.wf = true) (ht : t.mem = storeBytes base 0 bs m) (hj : j + 1 < bs.length) (hsize : bs.length ≤ memSize)
    (hpc : t.pc.toNat ≤ lastFetch) (ha : t.pc.toNat = dataAddr base j) :
    ∃ w, t.fetchWord = some w ∧ w.toNat = bs[j].toNat * 256 + bs[j + 1].toNat := by
  have hread (i : Nat) (hi : i < bs.length) : t.mem.read (dataAddr base i) = bs[i] := by
    simpa [ht] using read_storeBytes_inside base 0 bs m i hm hi (by omega)
  have hnext : t.pc.toNat + 1 = dataAddr base (j + 1) := by rw [dataAddr_succ (ha ▸ hpc), ha]
  refine ⟨_, State.fetchWord_of_le hpc, ?_⟩
  rw [wordOfBytes_toNat, hnext, ha, hread j (by omega), hread (j + 1) hj]

theorem State.firstRegs_getElem (s : State) (n k : Nat) (h : k < (s.firstRegs n).length) :
    (s.firstRegs n)[k] = s.getV (BitVec.ofNat 4 k) := by
  simp [State.firstRegs]

theorem bcdDigits_hundreds (b : Byte) : (bcdDigits b)[0].toNat = b.toNat / 100 :=
  (BitVec.toNat_ofNat ..).trans (Nat.mod_eq_of_lt (by omega))

theorem bcdDigits_tens (b : Byte) : (bcdDigits b)[1].toNat = b.toNat / 10 % 10 :=
  (BitVec.toNat_ofNat ..).trans (Nat.mod_eq_of_lt (by omega))

theorem bcdDigits_ones (b : Byte) : (bcdDigits b)[2].toNat = b.toNat % 10 :=
  (BitVec.toNat_ofNat ..).trans (Nat.mod_eq_of_lt (by omega))

/-- Settles O40: both instructions are one data access of at most 16 bytes, and the fetch reads two that follow one another. -/
theorem fetchSeesTheStoredBytes : Obligations.FetchSeesTheStoredBytes := by
  refine ⟨fun x z s t hm he hz hpc ha => ?_, fun x s t hm he hpc => ?_⟩
  · cases he
    have hx := x.isLt
    have hnext : BitVec.ofNat 4 (z.toNat + 1) = z + 1#4 := by simp [BitVec.ofNat_add]
    have hw := State.fetchWord_of_storeBytes hm rfl (by simpa using hz) (by simp [memSize]; omega) hpc ha
    simpa [State.firstRegs_getElem, hnext] using hw
  · cases he
    have hsize : (bcdDigits (s.getV x)).length ≤ memSize := by simp [memSize]
    refine ⟨fun ha => ?_, fun ha => ?_⟩
    · rw [← bcdDigits_hundreds, ← bcdDigits_tens]
      exact State.fetchWord_of_storeBytes hm rfl (by simp) hsize hpc ha
    · rw [← bcdDigits_tens, ← bcdDigits_ones]
      exact State.fetchWord_of_storeBytes hm rfl (by simp) hsize hpc ha

/-! ### HOST_WRITE -/

theorem State.unchanged_setMem (m : Memory) (s : State) : Unchanged [.mem] s (s.setMem m) := by
  constructor <;> simp

/-- During boot too, a host write above 0xFFF is refused (20_memory.md rule R47). -/
theorem Session.apply_hostWrite_boot_refused (c : State) (a : Nat) (b : Byte) (h : memSize ≤ a) :
    (⟨c, .boot⟩ : Session).apply (.hostWrite a b) = .refused .hostWriteOutOfRange := by
  show sessionOf .boot (Sys2Proof.Machine.hostWrite a b c) = _
  rw [Sys2Proof.Machine.hostWrite, if_neg (Nat.not_lt.mpr h)]
  rfl

/-- Settles O51: in the boot phase by the bound on the address, in the other two by the phase alone. -/
theorem hostWriteSetsOneByteDuringBoot : Obligations.HostWriteSetsOneByteDuringBoot := by
  rintro ⟨c, phase⟩ a b
  refine ⟨?_, ?_, ?_, ?_⟩
  · rintro rfl ha hm
    refine ⟨_, Session.apply_hostWrite_boot c a b (Nat.lt_succ_of_le ha), rfl, ?_, fun a' hne => ?_,
      State.unchanged_setMem _ c⟩
    · exact (Memory.read_write c.mem a a b hm).trans (if_pos rfl)
    · exact (Memory.read_write c.mem a a' b hm).trans (if_neg hne)
  · rintro rfl ha
    exact Session.apply_hostWrite_boot_refused c a b ha
  · rintro rfl
    rfl
  · rintro rfl
    rfl

end Sys2Proof.Machine
end

section
/-! The statements of 30_encoding.md: decoding is the inverse of encoding, in both directions, and the illegal words. -/

namespace Sys2Proof.Machine

variable {m : SysMode} {w : Word} {i : Instr}

/-! ### A word is the format of its own fields -/

section
variable {op n kk : Nat}

theorem formatNNN_of_fields (hop : (fieldOp w).toNat = op) : formatNNN (BitVec.ofNat 4 op) (fieldNNN w) = w := by
  subst hop
  simpa using formatNNN_fields w

theorem formatXKK_of_op (hop : (fieldOp w).toNat = op) :
    formatXKK (BitVec.ofNat 4 op) (fieldX w) (fieldKK w) = w := by
  subst hop
  simpa using formatXKK_fields w

theorem formatXKK_of_fields (hop : (fieldOp w).toNat = op) (hkk : (fieldKK w).toNat = kk) :
    formatXKK (BitVec.ofNat 4 op) (fieldX w) (BitVec.ofNat 8 kk) = w := by
  subst hkk
  simpa using formatXKK_of_op hop

theorem formatXYN_of_op (hop : (fieldOp w).toNat = op) :
    formatXYN (BitVec.ofNat 4 op) (fieldX w) (fieldY w) (fieldN w) = w := by
  subst hop
  simpa using formatXYN_fields w

theorem formatXYN_of_fields (hop : (fieldOp w).toNat = op) (hn : (fieldN w).toNat = n) :
    formatXYN (BitVec.ofNat 4 op) (fieldX w) (fieldY w) (BitVec.ofNat 4 n) = w := by
  subst hn
  simpa using formatXYN_of_op hop

theorem eq_formatNNN_iff {nnn : Addr} (hop : (fieldOp w).toNat = op) :
    w = formatNNN (BitVec.ofNat 4 op) nnn ↔ fieldNNN w = nnn := by
  constructor
  · intro h
    rw [h, fieldNNN_formatNNN]
  · rintro rfl
    exact (formatNNN_of_fields hop).symm

end

/-- In family 0 the excluded operands of SYS are the words of CLS and RET (30_encoding.md rule R59). -/
theorem sys_fieldNNN_wf_iff (hop : (fieldOp w).toNat = 0x0) :
    (Instr.sys (fieldNNN w)).wf = true ↔ w ≠ 0x00E0#16 ∧ w ≠ 0x00EE#16 := by
  have hcls : w = 0x00E0#16 ↔ fieldNNN w = 0x0E0#12 := eq_formatNNN_iff (nnn := 0x0E0#12) hop
  have hret : w = 0x00EE#16 ↔ fieldNNN w = 0x0EE#12 := eq_formatNNN_iff (nnn := 0x0EE#12) hop
  simp [Instr.wf, hcls, hret]

/-! ### Decoding an encoded instruction -/

/-- The word of a well-formed instruction decodes to it, in a mode that has it. -/
theorem decode_encode (hwf : i.wf = true) (hm : i.admitted m = true) : decode m (encode i) = .ok i := by
  cases i with
  | sys nnn =>
    obtain rfl : m = .nop := by simpa [Instr.admitted] using hm
    obtain ⟨hcls, hret⟩ := (sys_fieldNNN_wf_iff (w := formatNNN 0x0#4 nnn) (by simp)).mp (by simpa using hwf)
    simp [encode, decode, decodeFamily0, hcls, hret]
  | cls | ret => rfl
  | jp nnn | call nnn | ldI nnn | jpV0 nnn => simp [encode, decode]
  | seImm x kk | sneImm x kk | ldImm x kk | addImm x kk | rnd x kk => simp [encode, decode]
  | seReg x y | sneReg x y | drw x y n => simp [encode, decode]
  | ldReg x y | orReg x y | andReg x y | xorReg x y | addReg x y | sub x y | shr x y | subn x y | shl x y =>
    simp [encode, decode, decodeFamily8]
  | skp x | sknp x => simp [encode, decode, decodeFamilyE]
  | ldVxDT x | ldVxK x | ldDTVx x | ldSTVx x | addIVx x | ldFVx x | ldBVx x | ldMemVx x | ldVxMem x =>
    simp [encode, decode, decodeFamilyF]

/-- The decoder on bytes reads the first two as a word and leaves the others (30_encoding.md rule R54). -/
theorem decodeBytes_encodeBytes_append (rest : List Byte) (h : decode m (encode i) = .ok i) :
    decodeBytes m (encodeBytes i ++ rest) = .ok (i, rest) := by
  simp [decodeBytes, encodeBytes, h]

/-- Settles O1: instruction by instruction, on the word and so on its two bytes. -/
theorem decodeOfEncodeIsTheInstruction : Obligations.DecodeOfEncodeIsTheInstruction := fun _ _ rest hwf hm =>
  ⟨decode_encode hwf hm, decodeBytes_encodeBytes_append rest (decode_encode hwf hm)⟩

/-! ### Encoding a decoded instruction -/

/-- A word that gives an instruction in a mode: its own, well-formed, and one that the mode has. -/
def IsWordOf (m : SysMode) (w : Word) (i : Instr) : Prop := encode i = w ∧ i.wf = true ∧ i.admitted m = true

theorem isWordOf_of_decodeFamily0 (hop : (fieldOp w).toNat = 0x0) (h : decodeFamily0 m w = .ok i) : IsWordOf m w i := by
  unfold decodeFamily0 at h
  split at h
  next hcls => cases h; exact ⟨hcls.symm, rfl, rfl⟩
  next hcls =>
    split at h
    next hret => cases h; exact ⟨hret.symm, rfl, rfl⟩
    next hret =>
      cases m with
      | fault => cases h
      | nop =>
        cases h
        exact ⟨formatNNN_of_fields hop, (sys_fieldNNN_wf_iff hop).mpr ⟨hcls, hret⟩, rfl⟩

theorem isWordOf_of_decodeFamily8 (hop : (fieldOp w).toNat = 0x8) (h : decodeFamily8 w = .ok i) : IsWordOf m w i := by
  unfold decodeFamily8 at h
  split at h
  case h_10 => cases h
  all_goals next hn => cases h; exact ⟨formatXYN_of_fields hop hn, rfl, rfl⟩

theorem isWordOf_of_decodeFamilyE (hop : (fieldOp w).toNat = 0xE) (h : decodeFamilyE w = .ok i) : IsWordOf m w i := by
  unfold decodeFamilyE at h
  split at h
  case h_3 => cases h
  all_goals next hkk => cases h; exact ⟨formatXKK_of_fields hop hkk, rfl, rfl⟩

theorem isWordOf_of_decodeFamilyF (hop : (fieldOp w).toNat = 0xF) (h : decodeFamilyF w = .ok i) : IsWordOf m w i := by
  unfold decodeFamilyF at h
  split at h
  case h_10 => cases h
  all_goals next hkk => cases h; exact ⟨formatXKK_of_fields hop hkk, rfl, rfl⟩

/-- The converse of `decode_encode`. The decoder's arm for the op code `k` is the case `h_(k+1)`. -/
theorem isWordOf_of_decode (h : decode m w = .ok i) : IsWordOf m w i := by
  unfold decode at h
  split at h
  case h_1 hop => exact isWordOf_of_decodeFamily0 hop h
  case h_2 hop | h_3 hop | h_11 hop | h_12 hop => cases h; exact ⟨formatNNN_of_fields hop, rfl, rfl⟩
  case h_4 hop | h_5 hop | h_7 hop | h_8 hop | h_13 hop => cases h; exact ⟨formatXKK_of_op hop, rfl, rfl⟩
  case h_6 hop | h_10 hop =>
    split at h
    next hn => cases h; exact ⟨formatXYN_of_fields hop (congrArg BitVec.toNat hn), rfl, rfl⟩
    next => cases h
  case h_9 hop => exact isWordOf_of_decodeFamily8 hop h
  case h_14 hop => cases h; exact ⟨formatXYN_of_op hop, rfl, rfl⟩
  case h_15 hop => exact isWordOf_of_decodeFamilyE hop h
  case h_16 =>
    have hlt := (fieldOp w).isLt
    have hop : (fieldOp w).toNat = 0xF := by simp only [imp_false] at *; omega
    exact isWordOf_of_decodeFamilyF hop h

/-- Settles O2: by the arm of the decoder that gives the instruction. -/
theorem encodeOfDecodeIsTheWord : Obligations.EncodeOfDecodeIsTheWord := fun _ _ _ h => isWordOf_of_decode h

/-! ### The illegal words -/

/-- The five rows of 30_encoding.md rule R61's table, the illegal words of either mode. -/
def FitsIllegalRow (w : Word) : Prop :=
  (w.toNat / 4096 = 5 ∧ w.toNat % 16 ≠ 0) ∨
  (w.toNat / 4096 = 8 ∧ w.toNat % 16 ∈ [8, 9, 10, 11, 12, 13, 15]) ∨
  (w.toNat / 4096 = 9 ∧ w.toNat % 16 ≠ 0) ∨
  (w.toNat / 4096 = 14 ∧ w.toNat % 256 ∉ [0x9E, 0xA1]) ∨
  (w.toNat / 4096 = 15 ∧ w.toNat % 256 ∉ [0x07, 0x0A, 0x15, 0x18, 0x1E, 0x29, 0x33, 0x55, 0x65])

/-- The words that are SYS with `SYS_MODE = NOP` and illegal with `SYS_MODE = FAULT` (30_encoding.md rule R61). -/
def FitsSysRow (w : Word) : Prop := w.toNat / 4096 = 0 ∧ w.toNat ≠ 0x00E0 ∧ w.toNat ≠ 0x00EE

theorem decodeFamily0_error_iff :
    (∃ e, decodeFamily0 m w = .error e) ↔ m = .fault ∧ w.toNat ≠ 0x00E0 ∧ w.toNat ≠ 0x00EE := by
  have hcls : w = 0x00E0#16 ↔ w.toNat = 0x00E0 := BitVec.toNat_inj.symm
  have hret : w = 0x00EE#16 ↔ w.toNat = 0x00EE := BitVec.toNat_inj.symm
  unfold decodeFamily0
  rw [ne_eq, ne_eq, ← hcls, ← hret]
  split_ifs with h h'
  · simp [h]
  · simp [h']
  · cases m <;> simp [h, h']

/-- Of the sixteen function codes of family 8 nine are in use; 30_encoding.md rule R61's row lists the seven others. -/
theorem illegal_aluFunction_iff :
    w.toNat % 16 ∈ [8, 9, 10, 11, 12, 13, 15] ↔ w.toNat % 16 ∉ [0, 1, 2, 3, 4, 5, 6, 7, 14] :=
  (by decide : ∀ n < 16, n ∈ [8, 9, 10, 11, 12, 13, 15] ↔ n ∉ [0, 1, 2, 3, 4, 5, 6, 7, 14]) _ (Nat.mod_lt _ (by decide))

theorem decodeFamily8_error_iff :
    (∃ e, decodeFamily8 w = .error e) ↔ w.toNat % 16 ∈ [8, 9, 10, 11, 12, 13, 15] := by
  unfold decodeFamily8
  rw [fieldN_toNat, illegal_aluFunction_iff]
  split
  case h_10 => simp_all
  all_goals next hn => simp [hn]

theorem decodeFamilyE_error_iff : (∃ e, decodeFamilyE w = .error e) ↔ w.toNat % 256 ∉ [0x9E, 0xA1] := by
  unfold decodeFamilyE
  rw [fieldKK_toNat]
  split
  case h_3 => simp_all
  all_goals next hkk => simp [hkk]

theorem decodeFamilyF_error_iff : (∃ e, decodeFamilyF w = .error e) ↔
    w.toNat % 256 ∉ [0x07, 0x0A, 0x15, 0x18, 0x1E, 0x29, 0x33, 0x55, 0x65] := by
  unfold decodeFamilyF
  rw [fieldKK_toNat]
  split
  case h_10 => simp_all
  all_goals next hkk => simp [hkk]

theorem fieldN_eq_zero_iff : fieldN w = 0#4 ↔ w.toNat % 16 = 0 := by
  rw [← fieldN_toNat]; exact BitVec.toNat_inj.symm

/-- Which words the decoder rejects, in each mode: the arms not named are those that reject none. -/
theorem decode_error_iff : (∃ e, decode m w = .error e) ↔ FitsIllegalRow w ∨ (m = .fault ∧ FitsSysRow w) := by
  unfold decode
  rw [fieldOp_toNat]
  split
  case h_1 hop => simp [FitsIllegalRow, FitsSysRow, hop, decodeFamily0_error_iff]
  case h_6 hop | h_10 hop => split <;> simp_all [FitsIllegalRow, FitsSysRow, fieldN_eq_zero_iff]
  case h_9 hop => simp [FitsIllegalRow, FitsSysRow, hop, decodeFamily8_error_iff]
  case h_15 hop => simp [FitsIllegalRow, FitsSysRow, hop, decodeFamilyE_error_iff]
  case h_16 =>
    have hlt := w.isLt
    have hop : w.toNat / 4096 = 15 := by simp only [imp_false] at *; omega
    simp [FitsIllegalRow, FitsSysRow, hop, decodeFamilyF_error_iff]
  all_goals next hop => simp [FitsIllegalRow, FitsSysRow, hop]

theorem decode_nop_error_iff : (∃ e, decode .nop w = .error e) ↔ FitsIllegalRow w := by simp [decode_error_iff]

theorem decode_fault_error_iff : (∃ e, decode .fault w = .error e) ↔ FitsIllegalRow w ∨ FitsSysRow w := by
  simp [decode_error_iff]

/-! ### How many words of a family are illegal -/

theorem toOption_isNone_iff {ε α : Type} {r : Except ε α} : r.toOption.isNone = true ↔ ∃ e, r = .error e := by
  cases r <;> simp [Except.toOption]

/-- A property of the residue holds equally often in each of `k` periods. -/
theorem countP_range_mul (q : Nat → Bool) (k m : Nat) :
    ((List.range (k * m)).countP fun n => q (n % m)) = k * (List.range m).countP q := by
  induction k with
  | zero => simp
  | succ k ih =>
    have hlast : (List.range m).countP (fun n => q ((k * m + n) % m)) = (List.range m).countP q :=
      List.countP_congr fun n hn => by rw [Nat.mul_add_mod_self_right, Nat.mod_eq_of_lt (List.mem_range.mp hn)]
    rw [Nat.succ_mul, List.range_add, List.countP_append, ih, List.countP_map, Nat.succ_mul]
    exact congrArg _ hlast

theorem countP_range_notMem {legal : List Nat} {m : Nat} (hnodup : legal.Nodup) (hlt : ∀ n ∈ legal, n < m) :
    ((List.range m).countP fun n => decide (n ∉ legal)) = m - legal.length := by
  have hsub : legal.toFinset ⊆ (List.range m).toFinset := fun n hn => by simpa using hlt n (by simpa using hn)
  calc ((List.range m).countP fun n => decide (n ∉ legal))
      = ((List.range m).toFinset.filter (· ∉ legal)).card := List.nodup_range.card_eq_countP.symm
    _ = ((List.range m).toFinset \ legal.toFinset).card := by simp [Finset.sdiff_eq_filter]
    _ = m - legal.length := by
      rw [Finset.card_sdiff_of_subset hsub, List.toFinset_card_of_nodup hnodup,
        List.toFinset_card_of_nodup List.nodup_range, List.length_range]

/-- The count of one family's illegal words, `legal` being the residues by `period` of its legal ones. -/
theorem countP_illegal_of_family {op period : Nat} (k : Nat) (legal : List Nat)
    (h : ∀ w : Word, w.toNat / 4096 = op → ((∃ e, decode m w = .error e) ↔ w.toNat % period ∉ legal))
    (hop : op < 16 := by decide) (hk : k * period = 4096 := by decide) (hnodup : legal.Nodup := by decide)
    (hlt : ∀ n ∈ legal, n < period := by decide) :
    ((List.range 4096).countP fun low => (decode m (BitVec.ofNat 16 (op * 4096 + low))).toOption.isNone) =
      k * (period - legal.length) := by
  rw [← countP_range_notMem hnodup hlt, ← countP_range_mul _ k period, hk]
  refine List.countP_congr fun low hlow => ?_
  have hlow := List.mem_range.mp hlow
  have hw : (BitVec.ofNat 16 (op * 4096 + low)).toNat = op * 4096 + low := Nat.mod_eq_of_lt (by omega)
  have hres : (op * 4096 + low) % period = low % period := by rw [← hk, ← Nat.mul_assoc, Nat.mul_add_mod_self_right]
  rw [toOption_isNone_iff, h _ (by omega), hw, hres, decide_eq_true_iff]

/-- The counts of 30_encoding.md rule R61's table: 16 - 1 and 16 - 9 low nibbles with 256 values of the rest, 256 - 2 and
256 - 9 low bytes with 16. -/
theorem countP_illegal_row {op k : Nat} (hrow : (op, k) ∈ [(5, 3840), (8, 1792), (9, 3840), (14, 4064), (15, 3952)]) :
    ((List.range 4096).countP fun low => (decode .nop (BitVec.ofNat 16 (op * 4096 + low))).toOption.isNone) = k := by
  simp only [List.mem_cons, Prod.mk.injEq, List.not_mem_nil, or_false] at hrow
  obtain ⟨rfl, rfl⟩ | ⟨rfl, rfl⟩ | ⟨rfl, rfl⟩ | ⟨rfl, rfl⟩ | ⟨rfl, rfl⟩ := hrow
  · exact countP_illegal_of_family (period := 16) 256 [0] fun w hw => by
      simp [decode_nop_error_iff, FitsIllegalRow, hw]
  · exact countP_illegal_of_family (period := 16) 256 [0, 1, 2, 3, 4, 5, 6, 7, 14] fun w hw => by
      rw [decode_nop_error_iff, ← illegal_aluFunction_iff]
      simp [FitsIllegalRow, hw]
  · exact countP_illegal_of_family (period := 16) 256 [0] fun w hw => by
      simp [decode_nop_error_iff, FitsIllegalRow, hw]
  · exact countP_illegal_of_family (period := 256) 16 [0x9E, 0xA1] fun w hw => by
      simp [decode_nop_error_iff, FitsIllegalRow, hw]
  · exact countP_illegal_of_family (period := 256) 16 [0x07, 0x0A, 0x15, 0x18, 0x1E, 0x29, 0x33, 0x55, 0x65] fun w hw => by
      simp [decode_nop_error_iff, FitsIllegalRow, hw]

/-- With `SYS_MODE = FAULT` family 0 has two legal words, those of CLS and RET. -/
theorem countP_illegal_sys :
    ((List.range 4096).countP fun low => (decode .fault (BitVec.ofNat 16 low)).toOption.isNone) = 4094 := by
  have hcount := countP_illegal_of_family (m := .fault) (op := 0) (period := 4096) 1 [0x0E0, 0x0EE] fun w hw => by
    have hlow : w.toNat % 4096 = w.toNat := by omega
    simp [decode_fault_error_iff, FitsIllegalRow, FitsSysRow, hw, hlow]
  simpa using hcount

/-- Settles O3: the rows by the arms of the decoder, the counts by the legal function codes of each family, and the fault as
O5 has it of the word fetched. -/
theorem illegalWordsAreTheTable : Obligations.IllegalWordsAreTheTable := by
  refine ⟨fun w => decode_nop_error_iff, fun w => ?_, fun op k => countP_illegal_row, countP_illegal_sys, rfl, rfl,
    fun s e hs hpc he => ?_⟩
  · rw [decode_nop_error_iff]
    exact decode_fault_error_iff
  · have hw := BitVec.toNat_ofNat ((s.mem.read s.pc.toNat).toNat * 256 + (s.mem.read (s.pc.toNat + 1)).toNat) 16
    rw [Nat.mod_eq_of_lt (by omega)] at hw
    obtain ⟨-, hillegal, -⟩ := stepRunsTheDecodedInstruction s _ hs hw
    exact hillegal hpc e he

/-- Settles O4: each by evaluating the decoder. -/
theorem writtenOutWordsDecode : Obligations.WrittenOutWordsDecode := ⟨rfl, rfl, rfl, rfl, rfl, rfl, rfl, rfl, rfl⟩

end Sys2Proof.Machine
end

section
/-! The statements of 40_cycle.md: a batch is iterated steps, and ERROR stops it; every batch ends; the placed word runs. -/

namespace Sys2Proof.Machine

/-! ### Batches -/

/-- In ERROR a batch of any size changes nothing (40_cycle.md rule R66). -/
theorem stepBatch_of_error {s : State} (n : Nat) (h : s.status = .error) : stepBatch n s = .next s := by
  cases n with
  | zero => exact stepBatch_zero s
  | succ n => exact stepBatch_succ_error n s h

/-- A batch begins with one step, in either STATUS: stopping in ERROR and stepping on in ERROR give the same state. -/
theorem stepBatch_succ_next (n : Nat) {s t : State} (h : step s = .next t) : stepBatch (n + 1) s = stepBatch n t := by
  cases hs : s.status with
  | running => exact stepBatch_succ_running n s t hs h
  | error =>
    obtain rfl : s = t := Host.Outcome.next.inj ((step_of_error s hs).symm.trans h)
    rw [stepBatch_of_error _ hs, stepBatch_of_error _ hs]

theorem stepBatch_eq_run (n : Nat) (s : State) : stepBatch n s = Sys2Proof.core.run n s := by
  induction n generalizing s with
  | zero => rfl
  | succ n ih =>
    obtain ⟨t, ht⟩ := step_next s
    rw [stepBatch_succ_next n ht, core_run_succ_next n s t ht, ih t]

/-- A batch of `m + n` goes on where one of `m` ended. -/
theorem stepBatch_add {m n : Nat} {s t : State} (h : stepBatch m s = .next t) : stepBatch (m + n) s = stepBatch n t := by
  induction m generalizing s with
  | zero =>
    cases h
    rw [Nat.zero_add]
  | succ m ih =>
    obtain ⟨u, hu⟩ := step_next s
    rw [stepBatch_succ_next m hu] at h
    rw [Nat.succ_add, stepBatch_succ_next (m + n) hu, ih h]

/-- Settles O10: both runs begin with the same step, by induction over the batch; and a batch that has ended in ERROR goes on
without a change. -/
theorem batchIsIteratedStep : Obligations.BatchIsIteratedStep :=
  ⟨fun s n => stepBatch_eq_run n s, fun _ _ _ _ h => stepBatch_add h,
    fun _ _ _ n h ht => (stepBatch_add h).trans (stepBatch_of_error n ht)⟩

/-- Settles O11: every instruction gives a next state, and so every step and, by induction over the batch, every batch. -/
theorem everyBatchCompletes : Obligations.EveryBatchCompletes := fun s n => stepBatch_next n s

/-- Settles O9: by the definition of the batch, which asks for STATUS before each iteration. -/
theorem errorStopsExecution : Obligations.ErrorStopsExecution :=
  ⟨fun _ n h => stepBatch_of_error n h, stepBatch_zero⟩

/-! ### The placed word -/

/-- A word of the full 16 bits is its own table word. -/
theorem tableWord_sixteen {w : Nat} (h : w < 65536) : tableWord 16 w = BitVec.ofNat 16 w :=
  congrArg (BitVec.ofNat 16) (Nat.mod_eq_of_lt h)

/-- Settles O6: the placed word is what the RUNNING core fetches, and placing it leaves the parameters, and so SYS_MODE. -/
theorem placedWordIsWhatTheNextStepRuns : Obligations.PlacedWordIsWhatTheNextStepRuns := by
  intro s w i hm hw hd
  rw [State.withFetchWord, tableWord_sixteen hw]
  have hfetch := State.fetchWord_placeWord (BitVec.ofNat 16 w) s hm
  exact step_of_fetchInstr_ok (State.placeWord_status _ s) (State.fetchInstr_of_decode_ok hfetch hd)

end Sys2Proof.Machine
end

section
/-! The statements of 41_flow.md: the words of the control transfer instructions, where each sends PC, and calls that return. -/

namespace Sys2Proof.Machine

/-! ### The encoding patterns as numbers: the words of the formats (30_encoding.md rules R56, R57) -/

theorem wordNNN_toNat (op : Nibble) (nnn : Addr) : wordNNN op.toNat nnn = formatNNN op nnn := by
  rw [wordNNN, ← formatNNN_toNat, BitVec.ofNat_toNat, BitVec.setWidth_eq]

theorem wordXKK_toNat (op x : Nibble) (kk : Byte) : wordXKK op.toNat x kk.toNat = formatXKK op x kk := by
  rw [wordXKK, ← formatXKK_toNat, BitVec.ofNat_toNat, BitVec.setWidth_eq]

theorem wordXYN_toNat (op x y n : Nibble) : wordXYN op.toNat x y n.toNat = formatXYN op x y n := by
  rw [wordXYN, ← formatXYN_toNat, BitVec.ofNat_toNat, BitVec.setWidth_eq]

/-- An instruction that the mode FAULT has is no SYS: its word decodes to it in either mode. -/
theorem decodes_of_eq_encode {w : Word} {i : Instr} (hw : w = encode i) (hi : i.admitted .fault = true) : Decodes w i := by
  intro m
  subst hw
  cases i with
  | sys nnn => cases hi
  | _ => exact decode_encode rfl rfl

/-- The words `0nnn` but those of CLS and RET are the ones that SYS_MODE decides on (30_encoding.md rule R61). -/
theorem fitsSysRow_wordNNN {nnn : Addr} (hcls : nnn ≠ 0x0E0#12) (hret : nnn ≠ 0x0EE#12) : FitsSysRow (wordNNN 0x0 nnn) := by
  have hw : (wordNNN 0x0 nnn).toNat = nnn.toNat :=
    (congrArg BitVec.toNat (wordNNN_toNat 0x0#4 nnn)).trans (by simp [formatNNN_toNat])
  rw [FitsSysRow, hw]
  exact ⟨by omega, by bv_omega, by bv_omega⟩

/-! ### The program counter -/

theorem State.unchanged_setPC (w : Word) (s : State) : Unchanged [.pc] s (s.setPC w) := by
  constructor <;> simp

theorem State.skipped_skipWhen {c : Bool} {taken : Prop} (h : c = true ↔ taken) (s : State) :
    Skipped taken s (s.skipWhen c) := by
  obtain rfl := propext h
  exact ⟨fun hc => by simp [hc], fun hc => by simp [hc], by constructor <;> simp⟩

@[simp] theorem zext16_addr_toNat (nnn : Addr) : (zext16 nnn).toNat = nnn.toNat := by
  rw [zext16, BitVec.toNat_setWidth]
  omega

/-- The mask 0xFFF of JP V0 is the sum modulo 4096 (41_flow.md rule R85). -/
theorem jumpTarget_toNat (nnn : Addr) (offset : Byte) :
    (jumpTarget nnn offset).toNat = (nnn.toNat + offset.toNat) % 4096 := by
  have hsum : (zext16 nnn + zext16 offset).toNat = nnn.toNat + offset.toNat := by
    simp only [zext16, BitVec.toNat_add, BitVec.toNat_setWidth]
    omega
  rw [jumpTarget, BitVec.toNat_and, hsum]
  exact Nat.and_two_pow_sub_one_eq_mod _ 12

section
variable {s : State} {nnn : Addr}

theorem State.jumpOffset_of_v0 (h : s.params.jumpReg = .v0) : s.jumpOffset nnn = s.getV 0#4 := by
  rw [State.jumpOffset, h]

/-- The bits nnn[11:8] as a number. -/
theorem State.jumpOffset_of_vx (h : s.params.jumpReg = .vx) :
    s.jumpOffset nnn = s.getV (BitVec.ofNat 4 (nnn.toNat / 256)) := by
  rw [State.jumpOffset, h, BitVec.extractLsb', Nat.shiftRight_eq_div_pow]

end

/-! ### The instructions that do not use the stack -/

/-- Settles O20: `SYS nnn` is well-formed, its word is in the row that SYS_MODE decides on, and its meaning is `next`. -/
theorem sysIsANoOp : Obligations.SysIsANoOp := by
  intro nnn hcls hret
  refine ⟨?_, decode_fault_error_iff.mpr (.inr (fitsSysRow_wordNNN hcls hret)), fun s => ?_⟩
  · rw [show wordNNN 0x0 nnn = encode (.sys nnn) from wordNNN_toNat 0x0#4 nnn]
    exact decode_encode (by simp [Instr.wf, hcls, hret]) rfl
  · exact ⟨_, rfl, rfl, State.unchanged_setPC _ s⟩

/-- Settles O22: the target is the `nnn` field, and JP is one update of PC. -/
theorem jpJumps : Obligations.JpJumps := fun nnn =>
  ⟨decodes_of_eq_encode (wordNNN_toNat 0x1#4 nnn) rfl,
    fun s => ⟨_, rfl, zext16_addr_toNat nnn, State.unchanged_setPC _ s⟩⟩

/-- Settles O25: both are the skip on a condition, and the conditions are opposite. -/
theorem skipsCompareWithAByte : Obligations.SkipsCompareWithAByte := fun x kk =>
  ⟨decodes_of_eq_encode (wordXKK_toNat 0x3#4 x kk) rfl, decodes_of_eq_encode (wordXKK_toNat 0x4#4 x kk) rfl,
    fun s => ⟨⟨_, rfl, State.skipped_skipWhen beq_iff_eq s⟩, _, rfl, State.skipped_skipWhen bne_iff_ne s⟩⟩

/-- Settles O26, as O25. -/
theorem skipsCompareRegisters : Obligations.SkipsCompareRegisters := fun x y =>
  ⟨decodes_of_eq_encode (wordXYN_toNat 0x5#4 x y 0#4) rfl, decodes_of_eq_encode (wordXYN_toNat 0x9#4 x y 0#4) rfl,
    fun s => ⟨⟨_, rfl, State.skipped_skipWhen beq_iff_eq s⟩, _, rfl, State.skipped_skipWhen bne_iff_ne s⟩⟩

/-- Settles O27: the target is the masked sum with the register that the parameter selects. -/
theorem jpV0JumpsToTheMaskedSum : Obligations.JpV0JumpsToTheMaskedSum := by
  intro nnn
  refine ⟨decodes_of_eq_encode (wordNNN_toNat 0xB#4 nnn) rfl, fun s => ⟨_, rfl, fun h => ?_, fun h => ?_,
    State.unchanged_setPC _ s⟩⟩
  · rw [State.setPC_pc, jumpTarget_toNat, State.jumpOffset_of_v0 h]
  · rw [State.setPC_pc, jumpTarget_toNat, State.jumpOffset_of_vx h]

/-! ### The stack -/

section
variable {s : State}

theorem State.getElem?_push_self (w : Word) (h : s.sp < s.stack.length) : (s.push w).stack[s.sp]? = some w := by
  simp [h]

theorem State.getElem?_push_of_ne (w : Word) {k : Nat} (h : k ≠ s.sp) : (s.push w).stack[k]? = s.stack[k]? :=
  List.getElem?_set_ne h.symm

theorem State.topOfStack_of_getElem? {w : Word} (h : s.stack[s.sp - 1]? = some w) : s.topOfStack = w := by
  rw [State.topOfStack, List.getD_eq_getElem?_getD, h, Option.getD_some]

end

/-- Settles O21: the two ways RET ends. -/
theorem retPopsTheReturnAddress : Obligations.RetPopsTheReturnAddress := by
  refine ⟨decodes_of_eq_encode rfl rfl, fun s => ⟨fun hsp => ?_, fun w hsp hw => ?_⟩⟩
  · exact ⟨_, execRet_eq_next_iff.mpr (.inl ⟨hsp, rfl⟩), State.faulted_raise _ s⟩
  · refine ⟨_, execRet_eq_next_iff.mpr (.inr ⟨hsp, rfl⟩), State.topOfStack_of_getElem? hw, ?_, ?_⟩
    · exact Nat.sub_one_add_one hsp
    · constructor <;> simp

/-- Settles O23: the two ways CALL ends. -/
theorem callPushesTheReturnAddress : Obligations.CallPushesTheReturnAddress := by
  intro nnn
  refine ⟨decodes_of_eq_encode (wordNNN_toNat 0x2#4 nnn) rfl, fun s => ⟨fun hsp => ?_, fun hsp hlen => ?_⟩⟩
  · exact ⟨_, execCall_eq_next_iff.mpr (.inl ⟨hsp, rfl⟩), State.faulted_raise _ s⟩
  · refine ⟨_, execCall_eq_next_iff.mpr (.inr ⟨hsp.ne, rfl⟩), zext16_addr_toNat nnn, rfl,
      State.getElem?_push_self _ (hlen ▸ hsp), fun k hk => State.getElem?_push_of_ne _ hk, ?_⟩
    constructor <;> simp

/-! ### Calls that return -/

theorem execAll_cons_next {i : Instr} {is : List Instr} {s t : State} (h : exec i s = .next t) :
    execAll (i :: is) s = execAll is t := by
  rw [execAll, h]

theorem execAll_append_next {is js : List Instr} {s t : State} (h : execAll is s = .next t) :
    execAll (is ++ js) s = execAll js t := by
  induction is generalizing s with
  | nil => cases h; rfl
  | cons i is ih =>
    obtain ⟨u, hu⟩ := exec_next i s
    rw [execAll_cons_next hu] at h
    rw [List.cons_append, execAll_cons_next hu, ih h]

/-- A CALL, a body that ends with SP and the live stack entries as it found them, and a RET: the return address is the live
entry that the CALL pushed (41_flow.md rules R78, R80). -/
theorem execAll_call_body_ret {s : State} {nnn : Addr} {body : List Instr} {pc : Word} {stack : List Word}
    (hsp : s.sp < s.params.stackDepth) (hlen : s.stack.length = s.params.stackDepth)
    (hbody : execAll body ((s.push (s.pc + 2#16)).setPC (zext16 nnn)) =
      .next { s with pc := pc, stack := stack, sp := s.sp + 1 })
    (hlive : ∀ k, k < s.sp + 1 → stack[k]? = (s.push (s.pc + 2#16)).stack[k]?) :
    execAll (.call nnn :: (body ++ [.ret])) s = .next { s with pc := s.pc + 2#16, stack := stack } := by
  have hcall : exec (.call nnn) s = .next ((s.push (s.pc + 2#16)).setPC (zext16 nnn)) :=
    execCall_eq_next_iff.mpr (.inr ⟨hsp.ne, rfl⟩)
  have htop : stack[s.sp]? = some (s.pc + 2#16) :=
    (hlive s.sp (Nat.lt_succ_self _)).trans (State.getElem?_push_self _ (hlen ▸ hsp))
  have hret : exec .ret { s with pc := pc, stack := stack, sp := s.sp + 1 } =
      .next { s with pc := s.pc + 2#16, stack := stack } := by
    refine execRet_eq_next_iff.mpr (.inr ⟨Nat.succ_ne_zero _, ?_⟩)
    rw [State.topOfStack_of_getElem? (w := s.pc + 2#16) htop]
    rfl
  rw [execAll_cons_next hcall, execAll_append_next hbody, execAll_cons_next hret, execAll]

/-- A nest of calls and its returns, the empty nest included, by induction over the targets: all but the first call and the
last return are the body of the first call. -/
theorem execAll_calls_returns (targets : List Addr) {s : State} (hlen : s.stack.length = s.params.stackDepth)
    (hfit : s.sp + targets.length ≤ s.params.stackDepth) :
    ∃ pc stack, execAll (targets.map Instr.call ++ List.replicate targets.length Instr.ret) s =
        .next { s with pc := pc, stack := stack } ∧
      (∀ k, k < s.sp → stack[k]? = s.stack[k]?) ∧ (targets ≠ [] → pc = s.pc + 2#16) := by
  induction targets generalizing s with
  | nil => exact ⟨s.pc, s.stack, rfl, fun _ _ => rfl, fun h => absurd rfl h⟩
  | cons nnn rest ih =>
    rw [List.length_cons] at hfit
    obtain ⟨pc, stack, hbody, hlive, -⟩ := ih (s := (s.push (s.pc + 2#16)).setPC (zext16 nnn))
      (by simpa using hlen) (by simp only [State.setPC_sp, State.push_sp, State.setPC_params, State.push_params]; omega)
    refine ⟨s.pc + 2#16, stack, ?_, fun k hk => ?_, fun _ => rfl⟩
    · rw [List.map_cons, List.length_cons, List.replicate_succ', List.cons_append, ← List.append_assoc]
      exact execAll_call_body_ret (by omega) hlen hbody hlive
    · exact (hlive k (Nat.lt_succ_of_lt hk)).trans (State.getElem?_push_of_ne _ hk.ne)

/-- Settles O24: of the invariant only the capacity of the stack is needed. -/
theorem nestedCallsReturn : Obligations.NestedCallsReturn := by
  intro s targets hinv hne hfit
  obtain ⟨pc, stack, hrun, hlive, hpc⟩ := execAll_calls_returns targets hinv.capacity hfit
  exact ⟨_, hrun, hpc hne, rfl, hlive, by constructor <;> simp [State.getV]⟩

end Sys2Proof.Machine
end

section
/-! The statements of 42_alu.md: one rule for a result alone and one for a result and a flag, and the arithmetic of each
instruction as numbers. -/

namespace Sys2Proof.Machine

/-! ### A result, and a result with a flag -/

/-- How the instructions that write no flag end (42_alu.md rules R88 to R90). -/
theorem State.wroteRegister_setV (x : Nibble) (b : Byte) (s : State) : WroteRegister x b.toNat s (s.setV x b).advance :=
  ⟨by simp, fun z hz => by simp [State.getV_setV_of_ne x z b s hz], rfl, by constructor <;> simp⟩

theorem flagByte_toNat (c : Bool) : (flagByte c).toNat = if c then 1 else 0 := by
  cases c <;> rfl

/-- The flag is written last, and so is what stays for x = 0xF (42_alu.md rule R87). -/
theorem State.wroteRegisterAndFlag_setResultAndFlag (x : Nibble) (b : Byte) (c : Bool) (s : State) :
    WroteRegisterAndFlag x b.toNat c s (s.setResultAndFlag x b c).advance := by
  refine ⟨fun hx => ?_, ?_, fun z hzx hzf => ?_, by simp, by constructor <;> simp⟩
  · simp [State.getV_setResultAndFlag, vf, hx]
  · simp [State.getV_setResultAndFlag, vf, flagByte_toNat]
  · simp [State.getV_setResultAndFlag, vf, hzf, hzx.symm]

/-- A logic operation ends as its parameter says: a result alone, or a result and the flag 0 (42_alu.md rules R91 to R93). -/
theorem State.wrote_setLogicResult (x : Nibble) (b : Byte) (s : State) :
    (s.params.logicVfReset = false → WroteRegister x b.toNat s (s.setLogicResult x b).advance) ∧
      (s.params.logicVfReset = true → WroteRegisterAndFlag x b.toNat false s (s.setLogicResult x b).advance) := by
  unfold State.setLogicResult
  refine ⟨fun h => ?_, fun h => ?_⟩
  · simpa [h] using s.wroteRegister_setV x b
  · simpa [h] using s.wroteRegisterAndFlag_setResultAndFlag x b false

/-! ### The arithmetic as numbers -/

/-- The difference modulo 256 (42_alu.md rules R95, R97). -/
theorem byte_sub_toNat (a b : Byte) : (a - b).toNat = (256 + a.toNat - b.toNat) % 256 := by
  rw [BitVec.toNat_sub]
  omega

theorem shiftedOutRight_eq_decide (src : Byte) : shiftedOutRight src = decide (src.toNat % 2 = 1) := by
  rw [shiftedOutRight, BitVec.getLsbD, Nat.testBit_zero]

theorem shiftedOutLeft_eq_decide (src : Byte) : shiftedOutLeft src = decide (src.toNat ≥ 128) :=
  BitVec.msb_eq_decide src

theorem shiftRight_one_toNat (src : Byte) : (src >>> 1).toNat = src.toNat / 2 := by
  rw [BitVec.toNat_ushiftRight, Nat.shiftRight_one]

theorem shiftLeft_one_toNat (src : Byte) : (src <<< 1).toNat = src.toNat * 2 % 256 := by
  rw [BitVec.toNat_shiftLeft, Nat.shiftLeft_eq]

/-- The number that the parameter's two cases give is the source of the shift (42_alu.md rules R96, R98). -/
theorem State.shiftSource_toNat {s : State} {x y : Nibble} {src : Nat} (hx : s.params.shiftSrc = .vx → src = (s.getV x).toNat)
    (hy : s.params.shiftSrc = .vy → src = (s.getV y).toNat) : (s.shiftSource x y).toNat = src := by
  unfold State.shiftSource
  cases h : s.params.shiftSrc with
  | vx => exact (hx h).symm
  | vy => exact (hy h).symm

/-! ### The instructions -/

/-- Settles O28: a load is a result alone. -/
theorem loadsWriteOneRegister : Obligations.LoadsWriteOneRegister := fun x =>
  ⟨fun kk => ⟨decodes_of_eq_encode (wordXKK_toNat 0x6#4 x kk) rfl, fun s => ⟨_, rfl, s.wroteRegister_setV x kk⟩⟩,
    fun y => ⟨decodes_of_eq_encode (wordXYN_toNat 0x8#4 x y 0#4) rfl, fun s => ⟨_, rfl, s.wroteRegister_setV x (s.getV y)⟩⟩⟩

/-- Settles O29: the sum is a result alone, modulo 256. -/
theorem addByteWrapsWithoutCarry : Obligations.AddByteWrapsWithoutCarry := by
  intro x kk
  refine ⟨decodes_of_eq_encode (wordXKK_toNat 0x7#4 x kk) rfl, fun s => ⟨_, rfl, ?_⟩⟩
  rw [← BitVec.toNat_add]
  exact s.wroteRegister_setV x (s.getV x + kk)

/-- Settles O30: each of the three is the logic result of its own operation. -/
theorem logicOperationsAreBitwise : Obligations.LogicOperationsAreBitwise := by
  intro x y
  refine ⟨decodes_of_eq_encode (wordXYN_toNat 0x8#4 x y 1#4) rfl, decodes_of_eq_encode (wordXYN_toNat 0x8#4 x y 2#4) rfl,
    decodes_of_eq_encode (wordXYN_toNat 0x8#4 x y 3#4) rfl, fun s i r hir => ?_⟩
  rw [← BitVec.toNat_or, ← BitVec.toNat_and, ← BitVec.toNat_xor] at hir
  simp only [List.mem_cons, Prod.mk.injEq, List.not_mem_nil, or_false] at hir
  obtain ⟨rfl, rfl⟩ | ⟨rfl, rfl⟩ | ⟨rfl, rfl⟩ := hir
  · exact ⟨_, rfl, s.wrote_setLogicResult x (s.getV x ||| s.getV y)⟩
  · exact ⟨_, rfl, s.wrote_setLogicResult x (s.getV x &&& s.getV y)⟩
  · exact ⟨_, rfl, s.wrote_setLogicResult x (s.getV x ^^^ s.getV y)⟩

/-- Settles O31: the sum and the carry are both of the old values. -/
theorem addRegistersSetsTheCarry : Obligations.AddRegistersSetsTheCarry := by
  intro x y
  refine ⟨decodes_of_eq_encode (wordXYN_toNat 0x8#4 x y 4#4) rfl, fun s => ⟨_, rfl, ?_⟩⟩
  rw [← BitVec.toNat_add]
  exact s.wroteRegisterAndFlag_setResultAndFlag x _ (addCarry (s.getV x) (s.getV y))

/-- Settles O32: SUBN is SUB with its operands exchanged. -/
theorem subtractionsSetNoBorrow : Obligations.SubtractionsSetNoBorrow := by
  intro x y
  refine ⟨decodes_of_eq_encode (wordXYN_toNat 0x8#4 x y 5#4) rfl, decodes_of_eq_encode (wordXYN_toNat 0x8#4 x y 7#4) rfl,
    fun s => ?_⟩
  rw [← byte_sub_toNat, ← byte_sub_toNat]
  exact ⟨⟨_, rfl, s.wroteRegisterAndFlag_setResultAndFlag x _ (noBorrow (s.getV x) (s.getV y))⟩,
    _, rfl, s.wroteRegisterAndFlag_setResultAndFlag x _ (noBorrow (s.getV y) (s.getV x))⟩

/-- Settles O33: the source is the register that the parameter selects, and the result and the flag are both of it. -/
theorem shiftsSetTheBitShiftedOut : Obligations.ShiftsSetTheBitShiftedOut := by
  intro x y
  refine ⟨decodes_of_eq_encode (wordXYN_toNat 0x8#4 x y 6#4) rfl, decodes_of_eq_encode (wordXYN_toNat 0x8#4 x y 14#4) rfl,
    fun s src hx hy => ?_⟩
  obtain rfl := State.shiftSource_toNat hx hy
  rw [← shiftRight_one_toNat, ← shiftLeft_one_toNat, ← shiftedOutRight_eq_decide, ← shiftedOutLeft_eq_decide]
  exact ⟨⟨_, rfl, s.wroteRegisterAndFlag_setResultAndFlag x _ _⟩, _, rfl, s.wroteRegisterAndFlag_setResultAndFlag x _ _⟩

/-- Settles O34: of any draw, the destination holds the masked bits, and the rest is the frame of a register write. -/
theorem rndMasksTheDraw : Obligations.RndMasksTheDraw := by
  intro x kk
  refine ⟨decodes_of_eq_encode (wordXKK_toNat 0xC#4 x kk) rfl, fun s =>
    ⟨((s.setV x (Config.randomByte s.draws &&& kk)).countDraw).advance, rfl, rfl, fun j => ?_, fun z hz => ?_, rfl, ?_⟩⟩
  · simp
  · simp [State.getV_setV_of_ne x z _ s hz]
  · constructor <;> simp

end Sys2Proof.Machine
end

section
/-! The statements of 43_index_memory.md: the values of the index register, what a data access stores and what it loads, and
that the one gives back the other. -/

namespace Sys2Proof.Machine

/-! ### The index register -/

theorem zext16_toNat {n : Nat} (h : n ≤ 16) (v : BitVec n) : (zext16 v).toNat = v.toNat := BitVec.toNat_setWidth_of_le h

/-- The glyph's address does not wrap, wherever the font is (43_index_memory.md rule R103). -/
theorem glyphAddr_toNat (fontStart : Addr) (b : Byte) :
    (glyphAddr fontStart b).toNat = fontStart.toNat + 5 * (b.toNat % 16) := by
  rw [glyphAddr, lowNibble, BitVec.toNat_ofNat]
  omega

/-- The three values of `QUIRK_MEM_I_INC`, as numbers (43_index_memory.md rules R105, R106). -/
theorem indexMoved_of_regI_eq {x : Nibble} {s t : State} (h : t.regI = indexAfterTransfer s.params.memIInc s.regI x) :
    IndexMoved x s t := by
  have hx : (zext16 x).toNat = x.toNat := zext16_toNat (by decide) x
  refine ⟨fun hinc => ?_, fun hinc => ?_, fun hinc => ?_⟩ <;> rw [h, hinc, indexAfterTransfer]
  · rw [BitVec.toNat_add, BitVec.toNat_add, hx, Nat.mod_add_mod]
    rfl
  · rw [BitVec.toNat_add, hx]

theorem State.unchanged_setI_advance (w : Word) (s : State) : Unchanged [.regI, .pc] s (s.setI w).advance := by
  constructor <;> simp

/-- Settles O35: each of the three is one update of I. -/
theorem indexRegisterIsSet : Obligations.IndexRegisterIsSet := by
  refine ⟨fun nnn => ⟨decodes_of_eq_encode (wordNNN_toNat 0xA#4 nnn) rfl, fun s => ?_⟩,
    fun x => ⟨decodes_of_eq_encode (wordXKK_toNat 0xF#4 x 0x1E#8) rfl, fun s => ?_⟩,
    fun x => ⟨decodes_of_eq_encode (wordXKK_toNat 0xF#4 x 0x29#8) rfl, fun s => ?_⟩⟩
  · exact ⟨_, rfl, zext16_addr_toNat nnn, rfl, s.unchanged_setI_advance _⟩
  · refine ⟨_, rfl, ?_, rfl, s.unchanged_setI_advance _⟩
    rw [State.advance_regI, State.setI_regI, BitVec.toNat_add, zext16_toNat (by decide)]
  · exact ⟨_, rfl, glyphAddr_toNat s.params.fontStart (s.getV x), rfl, s.unchanged_setI_advance _⟩

/-! ### Stores: a whole data access, from I on -/

section
variable {base : Word} {bs : List Byte} {m : Memory}

theorem read_storeBytes_dataAddr (hm : m.wf = true) (hsize : bs.length ≤ memSize) (j : Nat) (hj : j < bs.length) :
    (storeBytes base 0 bs m).read (dataAddr base j) = bs[j] := by
  simpa using read_storeBytes_inside base 0 bs m j hm hj (by omega)

theorem read_storeBytes_of_ne (hm : m.wf = true) {a : Nat} (ha : ∀ k, k < bs.length → a ≠ dataAddr base k) :
    (storeBytes base 0 bs m).read a = m.read a :=
  read_storeBytes_outside base 0 bs m a hm fun j _ hj => ha j (by omega)

end

/-- Settles O36: the stored bytes are the three digits. -/
theorem bcdStoresThreeDigits : Obligations.BcdStoresThreeDigits := by
  intro x
  refine ⟨decodes_of_eq_encode (wordXKK_toNat 0xF#4 x 0x33#8) rfl, fun s hm => ?_⟩
  have hread := read_storeBytes_dataAddr (base := s.regI) (bs := bcdDigits (s.getV x)) hm (by simp [memSize])
  refine ⟨_, rfl, ?_, ?_, ?_, fun a ha => read_storeBytes_of_ne hm ha, rfl, by constructor <;> simp⟩
  · exact (congrArg BitVec.toNat (hread 0 (by simp))).trans (bcdDigits_hundreds _)
  · exact (congrArg BitVec.toNat (hread 1 (by simp))).trans (bcdDigits_tens _)
  · exact (congrArg BitVec.toNat (hread 2 (by simp))).trans (bcdDigits_ones _)

/-- The byte at I + z after V0 to Vx were stored from I on (43_index_memory.md rule R105). -/
theorem State.read_storeBytes_firstRegs {s : State} {x z : Nibble} (hm : s.mem.wf = true) (hz : z.toNat ≤ x.toNat) :
    (storeBytes s.regI 0 (s.firstRegs (x.toNat + 1)) s.mem).read (dataAddr s.regI z.toNat) = s.getV z := by
  have hx := x.isLt
  rw [read_storeBytes_dataAddr hm (by simp [memSize]; omega) z.toNat (by simp; omega), State.firstRegs_getElem,
    BitVec.ofNat_toNat, BitVec.setWidth_eq]

/-- Settles O37: the stored bytes are V0 to Vx. -/
theorem storeRegistersWritesMemory : Obligations.StoreRegistersWritesMemory := by
  intro x
  refine ⟨decodes_of_eq_encode (wordXKK_toNat 0xF#4 x 0x55#8) rfl, fun s hm => ?_⟩
  refine ⟨_, rfl, fun z hz => State.read_storeBytes_firstRegs hm hz, fun a ha => ?_, indexMoved_of_regI_eq rfl, rfl,
    by constructor <;> simp⟩
  exact read_storeBytes_of_ne hm fun k hk => ha k (Nat.lt_succ_iff.mp (by simpa using hk))

/-! ### Loads -/

section
variable {s : State} {x z : Nibble}

/-- V[z] after V0 to Vx were loaded from I on, for a z among them (43_index_memory.md rule R106). -/
theorem State.getV_loadRegs_readBytes_of_le (hz : z.toNat ≤ x.toNat) :
    (State.loadRegs 0 (s.readBytes (x.toNat + 1)) s).getV z = s.mem.read (dataAddr s.regI z.toNat) := by
  have hx := x.isLt
  rw [State.getV_loadRegs _ _ _ _ (by simpa using hx), if_pos (Nat.zero_le _), List.getD_eq_getElem _ _ (by simp; omega)]
  simp [State.readBytes, State.readData]

theorem State.getV_loadRegs_readBytes_of_gt (hz : z.toNat > x.toNat) :
    (State.loadRegs 0 (s.readBytes (x.toNat + 1)) s).getV z = s.getV z :=
  not_imp_comm.mp State.toNat_le_of_getV_loadRegs_ne (Nat.not_le.mpr hz)

end

/-- Settles O38: the loaded registers are V0 to Vx. -/
theorem loadRegistersReadsMemory : Obligations.LoadRegistersReadsMemory := by
  intro x
  refine ⟨decodes_of_eq_encode (wordXKK_toNat 0xF#4 x 0x65#8) rfl, fun s => ?_⟩
  exact ⟨_, rfl, fun z hz => State.getV_loadRegs_readBytes_of_le hz, fun z hz => State.getV_loadRegs_readBytes_of_gt hz,
    indexMoved_of_regI_eq rfl, by simp, by constructor <;> simp⟩

/-- Settles O39: the load reads the byte at I + z, and the store left V[z] there. -/
theorem loadAfterStoreGivesTheRegistersBack : Obligations.LoadAfterStoreGivesTheRegistersBack := by
  intro x s t u hm he hmem hI
  cases he
  refine ⟨_, rfl, fun z hz => ?_⟩
  calc (State.loadRegs 0 (u.readBytes (x.toNat + 1)) u).getV z
      = u.mem.read (dataAddr u.regI z.toNat) := State.getV_loadRegs_readBytes_of_le hz
    _ = (storeBytes s.regI 0 (s.firstRegs (x.toNat + 1)) s.mem).read (dataAddr s.regI z.toNat) := by rw [hmem, hI]; rfl
    _ = s.getV z := State.read_storeBytes_firstRegs hm hz

end Sys2Proof.Machine
end

section
/-! The statements of 44_display.md: a draw is the flips of the sprite's pixels one after the other, and no pixel is flipped
twice, so that a pixel changes exactly where the sprite covers it. -/

namespace Sys2Proof.Machine

/-- Settles O42: the cleared framebuffer reads 0 everywhere, and CLS is that update of FB. -/
theorem clsClearsTheFramebuffer : Obligations.ClsClearsTheFramebuffer :=
  ⟨decodes_of_eq_encode rfl rfl, fun s =>
    ⟨_, rfl, fun x y _ _ => Framebuffer.pixel_clear (x + 64 * y), rfl, by constructor <;> simp⟩⟩

/-! ### Flips, one after the other -/

/-- What one lit sprite bit does to the drawing (44_display.md rule R108). -/
def flipPixel (d : Drawing) (p : Nat) : Drawing := (d.1.flip p, d.2 || d.1.pixel p)

section
variable {ps : List Nat}

/-- Pixels that are all different are inverted once each, and the others not. -/
theorem pixel_foldl_flipPixel (hlt : ∀ p ∈ ps, p < 2048) (hnd : ps.Nodup) (d : Drawing) (q : Nat) :
    (ps.foldl flipPixel d).1.pixel q = (d.1.pixel q ^^ decide (q ∈ ps)) := by
  induction ps generalizing d with
  | nil => simp
  | cons p ps ih =>
    obtain ⟨hp, hlt⟩ := List.forall_mem_cons.mp hlt
    obtain ⟨hnotMem, hnd⟩ := List.nodup_cons.mp hnd
    rw [List.foldl_cons, ih hlt hnd, flipPixel, Framebuffer.pixel_flip _ _ _ hp]
    by_cases hq : p = q
    · subst hq
      simp [hnotMem]
    · simp [hq, Ne.symm hq]

/-- A pixel that is flipped once only is found with the value it had before the draw. -/
theorem collision_foldl_flipPixel (hlt : ∀ p ∈ ps, p < 2048) (hnd : ps.Nodup) (d : Drawing) :
    (ps.foldl flipPixel d).2 = true ↔ d.2 = true ∨ ∃ p ∈ ps, d.1.pixel p = true := by
  induction ps generalizing d with
  | nil => simp
  | cons p ps ih =>
    obtain ⟨hp, hlt⟩ := List.forall_mem_cons.mp hlt
    obtain ⟨hnotMem, hnd⟩ := List.nodup_cons.mp hnd
    have hsame : ∀ q ∈ ps, (flipPixel d p).1.pixel q = d.1.pixel q := fun q hq => by
      rw [flipPixel, Framebuffer.pixel_flip _ _ _ hp, decide_eq_false (ne_of_mem_of_not_mem hq hnotMem).symm, Bool.xor_false]
    have htail : (∃ q ∈ ps, (flipPixel d p).1.pixel q = true) ↔ ∃ q ∈ ps, d.1.pixel q = true :=
      exists_congr fun q => and_congr_right fun hq => by rw [hsame q hq]
    rw [List.foldl_cons, ih hlt hnd, htail]
    simp [flipPixel, or_assoc]

end

/-! ### The pixels of a sprite -/

section
variable (edge : DrawEdge) (x0 y0 : Nat)

/-- The pixel that the bit in row r, column c flips: none where the bit is 0 or dropped. -/
def bitPixel (r : Nat) (row : Byte) (c : Nat) : Option Nat :=
  if row.getLsbD (7 - c) then spritePixel edge x0 y0 r c else none

/-- The pixels that rows flip, from row r on, in the order they are visited. -/
def rowsPixels : Nat → List Byte → List Nat
  | _, [] => []
  | r, row :: rest => (List.range 8).filterMap (bitPixel edge x0 y0 r row) ++ rowsPixels (r + 1) rest

theorem drawBit_eq_foldl (r : Nat) (row : Byte) (c : Nat) (d : Drawing) :
    drawBit edge x0 y0 r row c d = (bitPixel edge x0 y0 r row c).toList.foldl flipPixel d := by
  obtain ⟨hd, hbit | hdropped⟩ | ⟨p, hbit, hp, -, hd⟩ := drawBit_cases edge x0 y0 r row c d
  · simp [hd, bitPixel, hbit]
  · simp [hd, bitPixel, hdropped]
  · simp [hd, bitPixel, hbit, hp, flipPixel]

theorem drawColumns_eq_foldl (r : Nat) (row : Byte) (n : Nat) (d : Drawing) :
    drawColumns edge x0 y0 r row n d = ((List.range n).filterMap (bitPixel edge x0 y0 r row)).foldl flipPixel d := by
  induction n with
  | zero => rfl
  | succ c ih =>
    rw [drawColumns, ih, drawBit_eq_foldl, List.range_succ, List.filterMap_append, List.foldl_append]
    cases hbit : bitPixel edge x0 y0 r row c <;> simp [hbit]

theorem drawRows_eq_foldl (r : Nat) (rows : List Byte) (d : Drawing) :
    drawRows edge x0 y0 r rows d = (rowsPixels edge x0 y0 r rows).foldl flipPixel d := by
  induction rows generalizing r d with
  | nil => rfl
  | cons row rest ih => rw [drawRows, ih, drawColumns_eq_foldl, rowsPixels, List.foldl_append]

variable {edge x0 y0}
variable {r c p : Nat} {row : Byte} {rows : List Byte}

theorem bitPixel_eq_some_iff :
    bitPixel edge x0 y0 r row c = some p ↔ row.getLsbD (7 - c) = true ∧ spritePixel edge x0 y0 r c = some p := by
  simp [bitPixel]

theorem mem_rowsPixels : p ∈ rowsPixels edge x0 y0 r rows ↔
    ∃ k b, rows[k]? = some b ∧ ∃ c < 8, bitPixel edge x0 y0 (r + k) b c = some p := by
  induction rows generalizing r with
  | nil => simp [rowsPixels]
  | cons row rest ih =>
    rw [rowsPixels, List.mem_append, ih, List.mem_filterMap]
    refine Iff.trans ?_ Nat.or_exists_add_one
    simp [Nat.add_assoc, Nat.add_comm 1]

theorem lt_of_mem_rowsPixels (h : p ∈ rowsPixels edge x0 y0 r rows) : p < 2048 := by
  obtain ⟨_, _, -, _, -, hbit⟩ := mem_rowsPixels.mp h
  exact spritePixel_lt (bitPixel_eq_some_iff.mp hbit).2

/-! ### Which bit covers a pixel -/

section
variable {px py : Nat} (hr : r < 32) (hc : c < 8) (hx : px < 64) (hy : py < 32)
include hr hc hx hy

theorem spritePixel_wrap_eq_some_iff : spritePixel .wrap x0 y0 r c = some (px + 64 * py) ↔
    (px + 64 - x0 % 64) % 64 = c ∧ (py + 32 - y0 % 32) % 32 = r := by
  rw [spritePixel_wrap, Option.some_inj]
  omega

theorem spritePixel_clip_eq_some_iff : spritePixel .clip x0 y0 r c = some (px + 64 * py) ↔
    (x0 % 64 ≤ px ∧ px - x0 % 64 = c) ∧ (y0 % 32 ≤ py ∧ py - y0 % 32 = r) := by
  rw [spritePixel_clip]
  split
  · simp only [reduceCtorEq, false_iff]
    omega
  · rw [Option.some_inj]
    omega

end

/-- No two bits of a sprite are drawn at one pixel: 8 columns are fewer than 64, and the rows fewer than 32. -/
theorem spritePixel_injective {r' c' : Nat} (hr : r < 32) (hc : c < 8) (hr' : r' < 32) (hc' : c' < 8)
    (h : spritePixel edge x0 y0 r c = some p) (h' : spritePixel edge x0 y0 r' c' = some p) : r = r' ∧ c = c' := by
  have hx : p % 64 < 64 := Nat.mod_lt _ (by decide)
  have hy : p / 64 < 32 := Nat.div_lt_of_lt_mul (spritePixel_lt h)
  rw [← Nat.mod_add_div p 64] at h h'
  cases edge with
  | wrap =>
    obtain ⟨rfl, rfl⟩ := (spritePixel_wrap_eq_some_iff hr hc hx hy).mp h
    exact ((spritePixel_wrap_eq_some_iff hr' hc' hx hy).mp h').symm
  | clip =>
    obtain ⟨⟨-, rfl⟩, -, rfl⟩ := (spritePixel_clip_eq_some_iff hr hc hx hy).mp h
    obtain ⟨⟨-, hcol⟩, -, hrow⟩ := (spritePixel_clip_eq_some_iff hr' hc' hx hy).mp h'
    exact ⟨hrow, hcol⟩

theorem nodup_rowsPixels (hrows : r + rows.length ≤ 32) : (rowsPixels edge x0 y0 r rows).Nodup := by
  induction rows generalizing r with
  | nil => exact List.nodup_nil
  | cons row rest ih =>
    rw [List.length_cons] at hrows
    refine List.nodup_append.mpr ⟨?_, ih (by omega), fun p hp q hq => ?_⟩
    · refine List.pairwise_filterMap.mpr (List.nodup_range.imp_of_mem fun hc hc' hne p hp q hq hpq => hne ?_)
      obtain ⟨-, hp⟩ := bitPixel_eq_some_iff.mp hp
      obtain ⟨-, hq⟩ := bitPixel_eq_some_iff.mp hq
      exact (spritePixel_injective (by omega) (List.mem_range.mp hc) (by omega) (List.mem_range.mp hc') hp (hpq ▸ hq)).2
    · rintro rfl
      obtain ⟨c, hc, hp⟩ := List.mem_filterMap.mp hp
      obtain ⟨k, b, hk, c', hc', hq⟩ := mem_rowsPixels.mp hq
      have hklt := (List.getElem?_eq_some_iff.mp hk).1
      obtain ⟨-, hp⟩ := bitPixel_eq_some_iff.mp hp
      obtain ⟨-, hq⟩ := bitPixel_eq_some_iff.mp hq
      have hrow := (spritePixel_injective (by omega) (List.mem_range.mp hc) (by omega) hc' hp hq).1
      omega

/-- The closed form, that recovers the bit from the pixel, says that some bit of the sprite flips the pixel. -/
theorem spriteCovers_iff_bitPixel {n px py : Nat} {row : Nat → Byte} (hn : n ≤ 32) (hx : px < 64) (hy : py < 32) :
    spriteCovers edge x0 y0 n row px py = true ↔
      ∃ r < n, ∃ c < 8, bitPixel edge x0 y0 r (row r) c = some (px + 64 * py) := by
  cases edge with
  | wrap =>
    simp only [spriteCovers, Bool.and_eq_true, decide_eq_true_iff]
    constructor
    · rintro ⟨⟨hc, hr⟩, hbit⟩
      exact ⟨_, hr, _, hc, bitPixel_eq_some_iff.mpr ⟨hbit,
        (spritePixel_wrap_eq_some_iff (by omega) hc hx hy).mpr ⟨rfl, rfl⟩⟩⟩
    · rintro ⟨r, hr, c, hc, h⟩
      obtain ⟨hbit, hp⟩ := bitPixel_eq_some_iff.mp h
      obtain ⟨rfl, rfl⟩ := (spritePixel_wrap_eq_some_iff (by omega) hc hx hy).mp hp
      exact ⟨⟨hc, hr⟩, hbit⟩
  | clip =>
    simp only [spriteCovers, Bool.and_eq_true, decide_eq_true_iff]
    constructor
    · rintro ⟨⟨⟨⟨hleft, hc⟩, htop⟩, hr⟩, hbit⟩
      exact ⟨_, hr, _, hc, bitPixel_eq_some_iff.mpr ⟨hbit,
        (spritePixel_clip_eq_some_iff (by omega) hc hx hy).mpr ⟨⟨hleft, rfl⟩, htop, rfl⟩⟩⟩
    · rintro ⟨r, hr, c, hc, h⟩
      obtain ⟨hbit, hp⟩ := bitPixel_eq_some_iff.mp h
      obtain ⟨⟨hleft, rfl⟩, htop, rfl⟩ := (spritePixel_clip_eq_some_iff (by omega) hc hx hy).mp hp
      exact ⟨⟨⟨⟨hleft, hc⟩, htop⟩, hr⟩, hbit⟩

end

/-! ### The whole sprite -/

/-- The pixels that `DRW Vx, Vy, n` flips in `s`. -/
def State.spritePixels (x y n : Nibble) (s : State) : List Nat :=
  rowsPixels s.params.drawEdge (s.getV x).toNat (s.getV y).toNat 0 (s.readBytes n.toNat)

section
variable {x y n : Nibble} {s : State} {p px py : Nat}

theorem State.draw_eq_foldl : s.draw x y n = (s.spritePixels x y n).foldl flipPixel (s.fb, false) :=
  drawRows_eq_foldl ..

theorem State.lt_of_mem_spritePixels (p : Nat) (hp : p ∈ s.spritePixels x y n) : p < 2048 := lt_of_mem_rowsPixels hp

theorem State.nodup_spritePixels : (s.spritePixels x y n).Nodup := by
  have hn := n.isLt
  refine nodup_rowsPixels ?_
  rw [State.readBytes_length]
  omega

theorem State.mem_spritePixels : p ∈ s.spritePixels x y n ↔ ∃ r < n.toNat, ∃ c < 8,
    bitPixel s.params.drawEdge (s.getV x).toNat (s.getV y).toNat r (s.readData r) c = some p := by
  simp [State.spritePixels, mem_rowsPixels, State.readBytes, List.getElem?_eq_some_iff, and_assoc]

theorem State.mem_spritePixels_iff_spriteCovers (hx : px < 64) (hy : py < 32) : px + 64 * py ∈ s.spritePixels x y n ↔
    spriteCovers s.params.drawEdge (s.getV x).toNat (s.getV y).toNat n.toNat s.readData px py = true := by
  have hn := n.isLt
  rw [State.mem_spritePixels, spriteCovers_iff_bitPixel (by omega) hx hy]

theorem State.pixel_draw (q : Nat) : (s.draw x y n).1.pixel q = (s.fb.pixel q ^^ decide (q ∈ s.spritePixels x y n)) := by
  rw [State.draw_eq_foldl, pixel_foldl_flipPixel State.lt_of_mem_spritePixels State.nodup_spritePixels]

theorem State.collision_draw : (s.draw x y n).2 = true ↔ ∃ p ∈ s.spritePixels x y n, s.fb.pixel p = true := by
  rw [State.draw_eq_foldl, collision_foldl_flipPixel State.lt_of_mem_spritePixels State.nodup_spritePixels]
  simp

/-- The collision bit by what became of the framebuffer (44_display.md rule R108, "from 1 to 0"). -/
theorem State.collision_draw_iff_pixel_cleared : (s.draw x y n).2 = true ↔ ∃ px py, px < 64 ∧ py < 32 ∧
    s.fb.pixel (px + 64 * py) = true ∧ (s.draw x y n).1.pixel (px + 64 * py) = false := by
  rw [State.collision_draw]
  constructor
  · rintro ⟨p, hp, hlit⟩
    have hlt := State.lt_of_mem_spritePixels p hp
    refine ⟨p % 64, p / 64, Nat.mod_lt _ (by decide), Nat.div_lt_of_lt_mul hlt, ?_⟩
    rw [Nat.mod_add_div, State.pixel_draw]
    simp [hp, hlit]
  · rintro ⟨px, py, -, -, hlit, hcleared⟩
    rw [State.pixel_draw, hlit] at hcleared
    exact ⟨_, by simpa using hcleared, hlit⟩

theorem flagByte_eq_one_iff {c : Bool} : flagByte c = 1#8 ↔ c = true := by cases c <;> decide

theorem flagByte_eq_zero_iff {c : Bool} : flagByte c = 0#8 ↔ c = false := by cases c <;> decide

theorem State.getV_vf_setFlag_advance (c : Bool) (s : State) : (s.setFlag c).advance.getV 0xF#4 = flagByte c := by
  simp [State.getV_setFlag, vf]

end

/-- Settles O43: of the drawing, the pixels and the collision bit; the rest is the frame of a write to FB and of a flag. -/
theorem drwIsTheExclusiveOrOfTheSprite : Obligations.DrwIsTheExclusiveOrOfTheSprite := by
  intro x y n
  refine ⟨decodes_of_eq_encode (wordXYN_toNat 0xD#4 x y n) rfl, fun s =>
    ⟨((s.setFB (s.draw x y n).1).setFlag (s.draw x y n).2).advance, rfl, fun px py hx hy => ?_, ?_, ?_,
      fun z hz => ?_, rfl, ?_⟩⟩
  · exact (State.pixel_draw _).trans (congrArg _ (Bool.eq_iff_iff.mpr
      (decide_eq_true_iff.trans (State.mem_spritePixels_iff_spriteCovers hx hy))))
  · rw [State.getV_vf_setFlag_advance, flagByte_eq_zero_iff, flagByte_eq_one_iff]
    exact (Bool.eq_false_or_eq_true _).symm
  · rw [State.getV_vf_setFlag_advance, flagByte_eq_one_iff]
    exact State.collision_draw_iff_pixel_cleared
  · simp [State.getV_setFlag, vf, hz]
  · constructor <;> simp

/-! ### The same sprite twice -/

section
variable {x y n : Nibble} {s : State}

/-- Neither the framebuffer nor VF is read for a sprite's place and bytes, but for a coordinate in VF. -/
theorem State.spritePixels_setFB_setFlag_advance (hx : x ≠ vf) (hy : y ≠ vf) (fb : Framebuffer) (c : Bool) :
    ((s.setFB fb).setFlag c).advance.spritePixels x y n = s.spritePixels x y n := by
  have hV : ∀ z, z ≠ vf → ((s.setFB fb).setFlag c).advance.getV z = s.getV z := fun z hz => by
    simp [State.getV_setFlag, hz]
  rw [State.spritePixels, hV x hx, hV y hy]
  rfl

theorem exists_bit_of_ne_zero {row : Byte} (h : row ≠ 0#8) : ∃ c < 8, row.getLsbD (7 - c) = true := by
  by_contra hzero
  refine h (BitVec.eq_of_getLsbD_eq fun i hi => ?_)
  have hbit : row.getLsbD (7 - (7 - i)) ≠ true := fun hone => hzero ⟨7 - i, by omega, hone⟩
  simpa [show 7 - (7 - i) = i by omega] using hbit

/-- `WRAP` drops no bit, so that a sprite with a 1 bit flips a pixel. -/
theorem State.exists_mem_spritePixels (hwrap : s.params.drawEdge = .wrap)
    (hrow : ∃ r, r < n.toNat ∧ s.mem.read (dataAddr s.regI r) ≠ 0#8) : ∃ p, p ∈ s.spritePixels x y n := by
  obtain ⟨r, hr, hbyte⟩ := hrow
  obtain ⟨c, hc, hbit⟩ := exists_bit_of_ne_zero hbyte
  exact ⟨_, State.mem_spritePixels.mpr ⟨r, hr, c, hc, bitPixel_eq_some_iff.mpr ⟨hbit, hwrap ▸ spritePixel_wrap ..⟩⟩⟩

end

/-- Settles O44: both draws flip the same pixels; without a collision in the first, it lit each of them. -/
theorem drawingTwiceRestoresTheFramebuffer : Obligations.DrawingTwiceRestoresTheFramebuffer := by
  intro x y n s t hx hy hwrap he
  cases he
  have hsame := State.spritePixels_setFB_setFlag_advance (n := n) (s := s) hx hy (s.draw x y n).1 (s.draw x y n).2
  refine ⟨_, rfl, Framebuffer.ext_pixel _ _ fun q _ => ?_, fun hrow hfirst => ?_⟩
  · refine (State.pixel_draw q).trans ?_
    rw [hsame, State.advance_fb, State.setFlag_fb, State.setFB_fb, State.pixel_draw, Bool.xor_assoc, Bool.xor_self,
      Bool.xor_false]
  · obtain ⟨p, hp⟩ := State.exists_mem_spritePixels (x := x) (y := y) hwrap hrow
    rw [State.getV_vf_setFlag_advance, flagByte_eq_zero_iff, Bool.eq_false_iff, ne_eq, State.collision_draw] at hfirst
    have hdark : s.fb.pixel p = false := eq_false_of_ne_true fun hlit => hfirst ⟨p, hp, hlit⟩
    rw [State.getV_vf_setFlag_advance, flagByte_eq_one_iff, State.collision_draw]
    refine ⟨p, hsame ▸ hp, ?_⟩
    rw [State.advance_fb, State.setFlag_fb, State.setFB_fb, State.pixel_draw]
    simp [hdark, hp]

end Sys2Proof.Machine
end

section
/-! The statements of 45_timer_keypad.md: the key that a low nibble selects, the lowest held key, and the two timers. -/

namespace Sys2Proof.Machine

section
variable {s : State}

/-- The key that is taken (45_timer_keypad.md rule R113). -/
theorem State.lowestKey_eq_some_iff {k : Nat} : s.lowestKey = some k ↔
    k < 16 ∧ s.key.getLsbD k = true ∧ ∀ j, j < k → s.key.getLsbD j = false := by
  simp [State.lowestKey, List.find?_range_eq_some, State.keyHeld, and_left_comm]

theorem State.lowestKey_eq_none_iff : s.lowestKey = none ↔ ∀ k, k < 16 → s.key.getLsbD k = false := by
  simp [State.lowestKey, State.keyHeld]

end

theorem State.unchanged_setDT_advance (b : Byte) (s : State) : Unchanged [.dt, .pc] s (s.setDT b).advance := by
  constructor <;> simp

theorem State.unchanged_setST_advance (b : Byte) (s : State) : Unchanged [.st, .pc] s (s.setST b).advance := by
  constructor <;> simp

/-- Settles O45: both are the skip on one key, and the conditions are opposite. -/
theorem skipsTestTheKeyOfTheLowNibble : Obligations.SkipsTestTheKeyOfTheLowNibble := fun x =>
  ⟨decodes_of_eq_encode (wordXKK_toNat 0xE#4 x 0x9E#8) rfl, decodes_of_eq_encode (wordXKK_toNat 0xE#4 x 0xA1#8) rfl,
    fun s => ⟨⟨_, rfl, State.skipped_skipWhen Iff.rfl s⟩, _, rfl, State.skipped_skipWhen (Bool.not_eq_true' _).to_iff s⟩⟩

/-- Settles O46: DT as a result alone. -/
theorem delayTimerIsRead : Obligations.DelayTimerIsRead := fun x =>
  ⟨decodes_of_eq_encode (wordXKK_toNat 0xF#4 x 0x07#8) rfl, fun s => ⟨_, rfl, s.wroteRegister_setV x s.dt⟩⟩

/-- Settles O47: the two ways LD Vx, K ends, by the lowest held key, which a byte holds. -/
theorem keyWaitTakesTheLowestKey : Obligations.KeyWaitTakesTheLowestKey := by
  intro x
  refine ⟨decodes_of_eq_encode (wordXKK_toNat 0xF#4 x 0x0A#8) rfl, fun s => ⟨fun k hk hheld hlower => ?_, fun hnone => ?_⟩⟩
  · have hlowest : s.lowestKey = some k := State.lowestKey_eq_some_iff.mpr ⟨hk, hheld, hlower⟩
    have hbyte : (BitVec.ofNat 8 k).toNat = k := Nat.mod_eq_of_lt (by omega)
    refine ⟨_, execLdVxK_eq_next_iff.mpr (.inr ⟨k, hlowest, rfl⟩), ?_⟩
    simpa only [hbyte] using s.wroteRegister_setV x (BitVec.ofNat 8 k)
  · exact execLdVxK_eq_next_iff.mpr (.inl ⟨State.lowestKey_eq_none_iff.mpr hnone, rfl⟩)

/-- Settles O48: each is one update of its timer. -/
theorem timersAreSet : Obligations.TimersAreSet := fun x =>
  ⟨decodes_of_eq_encode (wordXKK_toNat 0xF#4 x 0x15#8) rfl, decodes_of_eq_encode (wordXKK_toNat 0xF#4 x 0x18#8) rfl,
    fun s => ⟨⟨_, rfl, rfl, rfl, s.unchanged_setDT_advance _⟩, _, rfl, rfl, rfl, s.unchanged_setST_advance _⟩⟩

end Sys2Proof.Machine
end

section
/-! The statements of 60_exceptions.md: the fault that the next iteration raises, what a fault leaves unchanged, and the two host
operations TICK and SET_KEYS. -/

namespace Sys2Proof.Machine

/-! ### The fault of the next iteration -/

section
variable {s t : State} {i : Instr}

/-- The two ways an instruction ends: with its fault, or with STATUS and the cause annotation as they were (60_exceptions.md rule
R117, the rows of CALL and RET). -/
theorem exec_cases (he : exec i s = .next t) :
    (stackCause i s ≠ .none ∧ t = s.raise (stackCause i s)) ∨
    (stackCause i s = .none ∧ t.status = s.status ∧ t.cause = s.cause) := by
  cases i with
  | ret =>
    obtain ⟨hsp, rfl⟩ | ⟨hsp, rfl⟩ := execRet_eq_next_iff.mp he
    · exact .inl (by simp [stackCause, hsp])
    · exact .inr (by simp [stackCause, hsp])
  | call nnn =>
    obtain ⟨hsp, rfl⟩ | ⟨hsp, rfl⟩ := execCall_eq_next_iff.mp he
    · exact .inl (by simp [stackCause, hsp])
    · exact .inr (by simp [stackCause, hsp])
  | ldVxK x =>
    obtain ⟨-, rfl⟩ | ⟨k, -, rfl⟩ := execLdVxK_eq_next_iff.mp he
    · exact .inr ⟨rfl, rfl, rfl⟩
    · exact .inr ⟨rfl, rfl, rfl⟩
  | _ => cases he; exact .inr ⟨rfl, by simp [State.takeDraw], by simp [State.takeDraw]⟩

theorem wordOfBytes_eq_ofNat (hi lo : Byte) : wordOfBytes hi lo = BitVec.ofNat 16 (hi.toNat * 256 + lo.toNat) := by
  rw [← wordOfBytes_toNat, BitVec.ofNat_toNat, BitVec.setWidth_eq]

theorem nextCause_of_fetchInstr_error {cause : Cause} (hf : s.fetchInstr = .error cause) : nextCause s = cause := by
  obtain ⟨hpc, herr⟩ | ⟨hpc, w, rfl, ⟨e, hd, herr⟩ | ⟨i, -, hok⟩⟩ := s.fetchInstr_cases
  · cases herr.symm.trans hf
    exact if_pos hpc
  · cases herr.symm.trans hf
    exact (if_neg (Nat.not_lt.mpr hpc)).trans (by rw [← wordOfBytes_eq_ofNat, hd])
  · cases hok.symm.trans hf

theorem nextCause_of_fetchInstr_ok (hf : s.fetchInstr = .ok i) : nextCause s = stackCause i s := by
  obtain ⟨-, herr⟩ | ⟨hpc, w, rfl, ⟨e, -, herr⟩ | ⟨j, hd, hok⟩⟩ := s.fetchInstr_cases
  · cases herr.symm.trans hf
  · cases herr.symm.trans hf
  · cases hok.symm.trans hf
    exact (if_neg (Nat.not_lt.mpr hpc)).trans (by rw [← wordOfBytes_eq_ofNat, hd])

/-- The two ways an iteration of a RUNNING core ends, by the checks of 60_exceptions.md rule R119. -/
theorem step_cases_of_running (hs : s.status = .running) (h : step s = .next t) :
    (nextCause s ≠ .none ∧ t = s.raise (nextCause s)) ∨
    (nextCause s = .none ∧ t.status = .running ∧ t.cause = s.cause) := by
  obtain ⟨herr, -⟩ | ⟨-, cause, hf, rfl⟩ | ⟨-, i, hf, he⟩ := step_cases h
  · cases hs.symm.trans herr
  · rw [nextCause_of_fetchInstr_error hf]
    exact .inl ⟨State.cause_ne_none_of_fetchInstr_error hf, rfl⟩
  · rw [nextCause_of_fetchInstr_ok hf, ← hs]
    exact exec_cases he

end

/-- Settles O7: the codes by evaluation; the step ends in one of two ways, and `nextCause` says in which. -/
theorem faultsAreThoseOfTheTable : Obligations.FaultsAreThoseOfTheTable := by
  refine ⟨rfl, fun s hs => ?_⟩
  obtain ⟨t, ht⟩ := step_next s
  refine ⟨t, ht, ?_⟩
  obtain ⟨hne, rfl⟩ | ⟨hnone, hrun⟩ := step_cases_of_running hs ht
  · exact ⟨fun hnone => absurd hnone hne, fun _ => State.faulted_raise _ s⟩
  · exact ⟨fun _ => hrun, fun hne => absurd hnone hne⟩

/-- Settles O8: a step that ends in ERROR raised the fault, and a batch in ERROR changes nothing. -/
theorem faultsArePreciseAndTerminal : Obligations.FaultsArePreciseAndTerminal := by
  intro s t hs ht herr
  obtain ⟨hne, rfl⟩ | ⟨-, hrun, -⟩ := step_cases_of_running hs ht
  · exact ⟨⟨_, hne, State.faulted_raise _ s⟩, State.raise_mem _ s, fun n => stepBatch_of_error n herr⟩
  · cases hrun.symm.trans herr

/-! ### TICK and SET_KEYS -/

theorem State.unchanged_tick (s : State) : Unchanged [.dt, .st] s s.tick := by
  constructor <;> simp [State.tick]

theorem State.unchanged_setKeys (k : BitVec 16) (s : State) : Unchanged [.key] s (s.setKeys k) := by
  constructor <;> simp [State.setKeys]

/-- Settles O49: TICK is the tick of each timer, and reads no STATUS. -/
theorem tickCountsBothTimersDown : Obligations.TickCountsBothTimersDown := fun s =>
  ⟨tickTimer_toNat s.dt, tickTimer_toNat s.st, s.unchanged_tick⟩

/-- Settles O50: after the first RESET the operation is the core's own, in either phase and either STATUS. -/
theorem setKeysSetsTheKeypadOnly : Obligations.SetKeysSetsTheKeypadOnly := fun s k hp =>
  ⟨_, s.apply_of_reset (.setKeys k) hp, rfl, fun _ _ => rfl, s.core.unchanged_setKeys k⟩

end Sys2Proof.Machine
end

section
/-! The statements of 70_reset_and_hazards.md: the reset state, the operations that each phase of a session accepts, and the boot
sequence, whose loads are data accesses that do not wrap. -/

namespace Sys2Proof.Machine

/-! ### The boot sequence -/

theorem Params.wf_iff {p : Params} :
    p.wf = true ↔ 16 ≤ p.stackDepth ∧ p.fontData.length = 80 ∧ p.fontStart.toNat + 80 ≤ romStart := by
  simp [Params.wf, and_assoc]

theorem Session.perform_cons_refused {s : Session} {op : HostOp} (rest : List HostOp) {r : Refusal}
    (h : s.apply op = .refused r) : Session.perform (op :: rest) s = .refused r := by
  rw [Session.perform, h]

section
variable {base : Word} {bs : List Byte} {m : Memory} {k a : Nat}

/-- Below the top of memory the mask of a data address has no effect (20_memory.md rule R42). -/
theorem dataAddr_of_lt (h : base.toNat + k < memSize) : dataAddr base k = base.toNat + k := Nat.mod_eq_of_lt h

theorem read_storeBytes_add (hm : m.wf = true) (hfit : base.toNat + bs.length ≤ memSize) (hk : k < bs.length) :
    some ((storeBytes base 0 bs m).read (base.toNat + k)) = bs[k]? := by
  rw [← dataAddr_of_lt (by omega), read_storeBytes_dataAddr hm (by omega) k hk, List.getElem?_eq_getElem hk]

theorem read_storeBytes_of_outside (hm : m.wf = true) (hfit : base.toNat + bs.length ≤ memSize)
    (ha : a < base.toNat ∨ base.toNat + bs.length ≤ a) : (storeBytes base 0 bs m).read a = m.read a :=
  read_storeBytes_of_ne hm fun k hk => by
    rw [dataAddr_of_lt (by omega)]
    omega

/-- During boot, host writes that stay inside memory store their bytes one after the other. -/
theorem Session.perform_writeOps_append (rest : List HostOp) {c : State} (hfit : base.toNat + k + bs.length ≤ memSize) :
    Session.perform (writeOps (base.toNat + k) bs ++ rest) ⟨c, .boot⟩ =
      Session.perform rest ⟨c.setMem (storeBytes base k bs c.mem), .boot⟩ := by
  induction bs generalizing k c with
  | nil => rfl
  | cons b bs ih =>
    rw [List.length_cons] at hfit
    have hlt : base.toNat + k < memSize := by omega
    rw [writeOps, List.cons_append, Session.perform_cons_next _ _ _ _ (Session.apply_hostWrite_boot c _ b hlt),
      Nat.add_assoc, ih (by omega), ← dataAddr_of_lt hlt]
    rfl

/-- During boot, host writes that go beyond the top of memory are refused at the first one above it. -/
theorem Session.perform_writeOps_append_refused (rest : List HostOp) {c : State} (ha : a ≤ memSize)
    (hlong : memSize < a + bs.length) :
    Session.perform (writeOps a bs ++ rest) ⟨c, .boot⟩ = .refused .hostWriteOutOfRange := by
  induction bs generalizing a c with
  | nil => exact absurd hlong (Nat.not_lt.mpr ha)
  | cons b bs ih =>
    rw [List.length_cons] at hlong
    rw [writeOps, List.cons_append]
    by_cases hlt : a < memSize
    · rw [Session.perform_cons_next _ _ _ _ (Session.apply_hostWrite_boot c a b hlt)]
      exact ih hlt (by omega)
    · exact Session.perform_cons_refused _ (Session.apply_hostWrite_boot_refused c a b (Nat.not_lt.mp hlt))

end

/-- Memory after the font bootstrap, from the zero memory of RESET (rule R141). -/
def fontMemory (p : Params) : Memory := storeBytes (zext16 p.fontStart) 0 p.fontData []

/-- Memory after the font bootstrap and the ROM load (rules R141, R142). -/
def bootMemory (p : Params) (rom : List Byte) : Memory := storeBytes (BitVec.ofNat 16 romStart) 0 rom (fontMemory p)

section
variable {p : Params} {rom : List Byte} {k a : Nat}

theorem fontMemory_wf : (fontMemory p).wf = true := storeBytes_wf _ _ _ _ rfl

theorem fontBase_fits (hp : p.wf = true) : (zext16 p.fontStart).toNat + p.fontData.length ≤ memSize := by
  obtain ⟨-, hlen, hstart⟩ := Params.wf_iff.mp hp
  rw [zext16_addr_toNat, hlen]
  exact hstart.trans (by decide)

theorem romBase_fits (hrom : rom.length ≤ 3584) : (BitVec.ofNat 16 romStart).toNat + rom.length ≤ memSize :=
  Nat.add_le_add_left hrom romStart

/-- Outside the ROM, memory is as the font bootstrap left it. -/
theorem read_bootMemory_of_outside (hrom : rom.length ≤ 3584) (ha : a < 0x200 ∨ 0x200 + rom.length ≤ a) :
    (bootMemory p rom).read a = (fontMemory p).read a :=
  read_storeBytes_of_outside fontMemory_wf (romBase_fits hrom) ha

theorem read_bootMemory_rom (hrom : rom.length ≤ 3584) (hk : k < rom.length) :
    some ((bootMemory p rom).read (0x200 + k)) = rom[k]? :=
  read_storeBytes_add fontMemory_wf (romBase_fits hrom) hk

/-- The font lies below the ROM, whose load leaves it as it is. -/
theorem read_bootMemory_font (hp : p.wf = true) (hrom : rom.length ≤ 3584) (hk : k < 80) :
    some ((bootMemory p rom).read (p.fontStart.toNat + k)) = p.fontData[k]? := by
  obtain ⟨-, hlen, hstart⟩ := Params.wf_iff.mp hp
  rw [romStart] at hstart
  rw [read_bootMemory_of_outside hrom (by omega), ← zext16_addr_toNat]
  exact read_storeBytes_add rfl (fontBase_fits hp) (hlen ▸ hk)

theorem read_bootMemory_else (hp : p.wf = true) (hrom : rom.length ≤ 3584)
    (hfont : a < p.fontStart.toNat ∨ p.fontStart.toNat + 80 ≤ a) (ha : a < 0x200 ∨ 0x200 + rom.length ≤ a) :
    (bootMemory p rom).read a = 0#8 := by
  obtain ⟨-, hlen, -⟩ := Params.wf_iff.mp hp
  rw [read_bootMemory_of_outside hrom ha]
  exact read_storeBytes_of_outside rfl (fontBase_fits hp) (by rwa [zext16_addr_toNat, hlen])

/-- The boot sequence up to the ROM load: RESET and the font bootstrap are accepted (rule R141). -/
theorem Session.perform_bootOps {s : Session} (hp : s.core.params.wf = true) (keys : BitVec 16) :
    Session.perform (bootOps s.core.params rom keys) s =
      Session.perform (writeOps romStart rom ++ [.setKeys keys])
        ⟨s.core.resetOp.setMem (fontMemory s.core.params), .boot⟩ := by
  have hfont := Session.perform_writeOps_append (base := zext16 s.core.params.fontStart) (k := 0)
    (writeOps romStart rom ++ [.setKeys keys]) (c := s.core.resetOp) (fontBase_fits hp)
  rw [Nat.add_zero, zext16_addr_toNat] at hfont
  rw [bootOps, Session.perform_cons_next _ _ _ _ s.apply_reset, hfont]
  rfl

/-- The boot sequence with a ROM that fits (rule R142). -/
theorem Session.perform_bootOps_of_le {s : Session} (hp : s.core.params.wf = true) (hrom : rom.length ≤ 3584)
    (keys : BitVec 16) :
    Session.perform (bootOps s.core.params rom keys) s =
      .next ⟨(s.core.resetOp.setMem (bootMemory s.core.params rom)).setKeys keys, .boot⟩ :=
  (Session.perform_bootOps hp keys).trans
    (Session.perform_writeOps_append (base := BitVec.ofNat 16 romStart) (k := 0) [.setKeys keys] (romBase_fits hrom))

end

/-- Settles O54: the loads store the font and then the ROM, at addresses of their own, into the zero memory of RESET; a ROM that
does not fit has a write above 0xFFF. -/
theorem bootLoadsFontAndRom : Obligations.BootLoadsFontAndRom := by
  intro s rom keys hp
  refine ⟨fun hrom => ?_, fun hlong => ?_⟩
  · exact ⟨_, Session.perform_bootOps_of_le hp hrom keys, rfl, rfl, rfl, rfl, rfl,
      fun k hk => read_bootMemory_rom hrom hk, fun k hk => read_bootMemory_font hp hrom hk,
      fun a hfont ha => read_bootMemory_else hp hrom hfont ha⟩
  · rw [Session.perform_bootOps hp keys]
    exact Session.perform_writeOps_append_refused _ (by decide) (by rw [memSize, romStart]; omega)

/-! ### The session's invariant -/

theorem Session.inv_of_core {s : Session} (hp : s.phase ≠ .powerOn) (h : s.core.Inv) : s.Inv :=
  ⟨fun he => absurd he hp, h.parameters, fun _ => h⟩

/-- The first RESET needs the parameters alone; every later operation keeps the core's invariant. -/
theorem Session.core_inv_of_apply {s t : Session} {op : HostOp} (h : s.Inv) (ho : s.apply op = .next t) : t.core.Inv := by
  by_cases hp : s.phase = .powerOn
  · obtain ⟨-, rfl⟩ := Session.apply_of_powerOn hp ho
    exact State.inv_resetOp h.parameters
  · exact hostOperationsKeepTheInvariant s t op (h.core hp) ho

/-- Settles O57: no operation leads back to power-on, and after each one the core has the machine's invariant. -/
theorem hostOperationsKeepTheSessionInvariant : Obligations.HostOperationsKeepTheSessionInvariant :=
  ⟨fun _ hp => ⟨fun _ => rfl, hp, fun hne => absurd rfl hne⟩,
    fun _ _ _ h ho => Session.inv_of_core (Session.apply_phase ho) (Session.core_inv_of_apply h ho)⟩

/-! ### RESET, and what comes before the first one -/

/-- Settles O13: both are the reset state of parameters that are in their ranges. -/
theorem resetMeetsTheInvariant : Obligations.ResetMeetsTheInvariant :=
  ⟨State.inv_afterReset (by decide) _ _, fun _ hp => State.inv_resetOp hp⟩

theorem State.getV_resetOp (s : State) (z : Nibble) : s.resetOp.getV z = 0#8 := Vector.getElem_replicate _

/-- Of the operations after the first RESET, RESET alone leaves ERROR (60_exceptions.md rules R121, R126). -/
theorem Session.status_applyAfterReset_of_error {s u : Session} {op : HostOp} (herr : s.core.status = .error)
    (hne : op ≠ .reset) (ho : s.applyAfterReset op = .next u) : u.core.status = .error := by
  cases op with
  | reset => exact absurd rfl hne
  | step n =>
    obtain ⟨t, ht, rfl⟩ := sessionOf_eq_next_iff.mp ho
    cases (stepBatch_of_error n herr).symm.trans ht
    exact herr
  | tick => cases ho; exact herr
  | setKeys k => cases ho; exact herr
  | hostWrite a b =>
    simp only [Session.applyAfterReset] at ho
    split at ho
    · obtain ⟨t, ht, rfl⟩ := sessionOf_eq_next_iff.mp ho
      obtain ⟨-, rfl⟩ := hostWrite_eq_next_iff.mp ht
      exact herr
    · cases ho
    · cases ho

/-- Settles O52: every component of the reset state, and the operations that are not RESET, each in ERROR. -/
theorem resetGivesEveryComponentItsValue : Obligations.ResetGivesEveryComponentItsValue := by
  refine ⟨fun s u op herr hne ho => ?_, fun s => ?_⟩
  · by_cases hp : s.phase = .powerOn
    · exact absurd (Session.apply_of_powerOn hp ho).1 hne
    · rw [Session.apply_of_reset s op hp] at ho
      exact Session.status_applyAfterReset_of_error herr hne ho
  · exact ⟨_, s.apply_reset, rfl, rfl, fun _ => rfl, State.getV_resetOp s.core, rfl, List.length_replicate,
      fun w hw => List.eq_of_mem_replicate hw, rfl, rfl, rfl, fun x y _ _ => Framebuffer.pixel_clear (x + 64 * y),
      rfl, rfl, rfl, rfl⟩

/-- Settles O53, by the operation. -/
theorem onlyResetBeforeTheFirstReset : Obligations.OnlyResetBeforeTheFirstReset := by
  rintro ⟨c, phase⟩ op rfl hne
  cases op with
  | reset => exact absurd rfl hne
  | step _ | tick | setKeys _ | hostWrite _ _ => rfl

/-- Settles O56: the session at power-on is in the power-on phase, and RESET keeps its keypad, which is 0, and its draw counter. -/
theorem firstResetAfterPowerOnGivesTheResetState : Obligations.FirstResetAfterPowerOnGivesTheResetState := by
  intro u
  have hrefused {op : HostOp} (hne : op ≠ .reset) : (Session.powerOn u).apply op = .refused .beforeReset :=
    onlyResetBeforeTheFirstReset _ op rfl hne
  refine ⟨rfl, fun k _ => BitVec.getLsbD_zero, u.unchanged_setKeys 0#16, fun n => hrefused nofun, hrefused nofun,
    fun a b => hrefused nofun, _, Session.apply_reset _, rfl, rfl, fun hparams hdraws => ?_⟩
  show State.afterReset u.params 0#16 u.draws = State.reset
  rw [hparams, hdraws, State.reset]

end Sys2Proof.Machine
end

section
/-! The statement of 40_cycle.md section 3: where PC goes after an instruction that does not fault. -/

namespace Sys2Proof.Machine

/-- No key is held exactly when the keypad is all 0 (45_timer_keypad.md rule R113). -/
theorem State.lowestKey_eq_none_iff_key_eq_zero {s : State} : s.lowestKey = none ↔ s.key = 0#16 := by
  rw [State.lowestKey_eq_none_iff]
  refine ⟨fun h => BitVec.eq_of_getLsbD_eq fun k hk => ?_, fun h k _ => ?_⟩
  · rw [h k hk, BitVec.getLsbD_zero]
  · rw [h, BitVec.getLsbD_zero]

theorem zext16_addr_eq_ofNat (nnn : Addr) : zext16 nnn = BitVec.ofNat 16 nnn.toNat := (BitVec.ofNat_toNat 16 nnn).symm

theorem jumpTarget_eq_ofNat (nnn : Addr) (offset : Byte) :
    jumpTarget nnn offset = BitVec.ofNat 16 ((nnn.toNat + offset.toNat) % 4096) := by
  rw [← jumpTarget_toNat, BitVec.ofNat_toNat, BitVec.setWidth_eq]

theorem State.pc_skipWhen_not (c : Bool) (s : State) :
    (s.skipWhen (!c)).pc = if c then s.pc + 2#16 else s.pc + 4#16 := by
  cases c <;> rfl

/-- Each instruction by the way it ends when it does not fault: PC + 2, a skip, a target, the return address, or the wait for a
key (40_cycle.md rule R73). -/
theorem pc_eq_successor_of_exec {i : Instr} {s t : State} (he : exec i s = .next t) (hc : stackCause i s = .none) :
    t.pc = successor i s := by
  cases i with
  | ret =>
    obtain ⟨hsp, -⟩ | ⟨-, rfl⟩ := execRet_eq_next_iff.mp he
    · simp [stackCause, hsp] at hc
    · rfl
  | call nnn =>
    obtain ⟨hsp, -⟩ | ⟨-, rfl⟩ := execCall_eq_next_iff.mp he
    · simp [stackCause, hsp] at hc
    · exact zext16_addr_eq_ofNat nnn
  | ldVxK x =>
    obtain ⟨hnone, rfl⟩ | ⟨k, hk, rfl⟩ := execLdVxK_eq_next_iff.mp he
    · exact (if_pos (State.lowestKey_eq_none_iff_key_eq_zero.mp hnone)).symm
    · have hkey : s.key ≠ 0#16 := mt State.lowestKey_eq_none_iff_key_eq_zero.mpr (by simp [hk])
      exact (if_neg hkey).symm
  | jp nnn => cases he; exact zext16_addr_eq_ofNat nnn
  | jpV0 nnn => cases he; exact jumpTarget_eq_ofNat nnn _
  | seImm _ _ | sneImm _ _ | seReg _ _ | sneReg _ _ => cases he; simp [successor]
  | skp x => cases he; exact State.skipWhen_pc _ s
  | sknp x => cases he; exact State.pc_skipWhen_not _ s
  | rnd _ _ => cases he; rfl
  | _ => cases he; simp [successor]

/-- Settles O12: an instruction always gives a next state, which without a fault has the STATUS from before. -/
theorem successorsAreTheTable : Obligations.SuccessorsAreTheTable := by
  intro i s hs hc
  obtain ⟨t, he⟩ := exec_next i s
  obtain ⟨hne, -⟩ | ⟨-, hstatus, -⟩ := exec_cases he
  · exact absurd hc hne
  · exact ⟨t, he, hstatus.trans hs, pc_eq_successor_of_exec he hc⟩

end Sys2Proof.Machine
end
